-- ==== Sys2Proof/Word.lean ====
section
/-! DEFINITION. The words of the block (00_scope.md R9, R10) and the set of binary32 values (R11). -/

namespace Sys2Proof

/-- A byte: 8 bits (R9). -/
abbrev Byte := BitVec 8

/-- A word: 32 bits (R9). Registers, command words, `BUF` and `WORK` elements. -/
abbrev Word := BitVec 32

/-- A value of the IEEE 754 binary32 format (R11). There is one NaN value: no rule's result depends on a NaN's sign or
payload (20_memory.md R97). `fin neg e m` is the number (-1)^neg × m × 2^(e - 149); it is a binary32 value when
`F32.canonical` says so (Machine/Float.lean). -/
inductive F32 where
  | nan
  | inf (neg : Bool)
  | fin (neg : Bool) (e : Nat) (m : Nat)
deriving DecidableEq, Repr, Inhabited

/-- The value +0.0. -/
abbrev F32.zero : F32 := .fin false 0 0

end Sys2Proof
end

