-- ==== Sys2Proof/Syntax.lean ====
section
/-! DEFINITION. Commands (30_encoding.md R110 to R117), and the accesses and events a program of the block is made of
(00_scope.md R3, R4; 30_encoding.md R122). -/

namespace Sys2Proof

/-- The commands: one constructor per row of spec/opcode_table.json. Operand fields have the widths of R112 to R114 and
are unsigned (R115). -/
inductive Instr where
  /-- OP 0x00, format N (R143). -/
  | nop
  /-- OP 0x01, format N (R161). -/
  | bqReset
  /-- OP 0x02, format P: frame count and volume scale (R162). -/
  | bqProcess (nfr : BitVec 12) (vs : BitVec 9)
  /-- OP 0x03, format I: profile slot (R163). -/
  | setActive (id : BitVec 8)
  /-- OP 0x04, format N (R164). -/
  | clearActive
  /-- OP 0x05, format I: profile slot (R165). -/
  | profCommit (id : BitVec 8)
  /-- OP 0x06, format I: profile slot (R166). -/
  | profDelete (id : BitVec 8)
  /-- OP 0x10, format N (R241). -/
  | aoStart
  /-- OP 0x11, format N (R242). -/
  | aoStop
  /-- OP 0x12, format N (R243). -/
  | aoTask
  /-- OP 0x20, format N (R296). -/
  | volCompute
  /-- OP 0x30, format R: first byte and byte count in `STORE` (R201). -/
  | crcRun (start : BitVec 12) (len : BitVec 12)
  /-- OP 0x31, format N (R203). -/
  | eqInit
  /-- OP 0x32, format N (R205). -/
  | storeSeal
deriving DecidableEq, Repr, Inhabited

/-- The size of a host bus access: 1, 2 or 4 bytes (20_memory.md R80). -/
inductive AccessSize where
  | byte
  | half
  | word
deriving DecidableEq, Repr, Inhabited

/-- The number of bytes of an access. -/
abbrev AccessSize.bytes : AccessSize → Nat
  | .byte => 1
  | .half => 2
  | .word => 4

/-- A host bus offset: 15 bits, 0x0000 to 0x7FFF (20_memory.md R80). -/
abbrev Offset := BitVec 15

/-- One access by HOST (20_memory.md R80). A write of n bytes carries the low n bytes of its word. -/
inductive HostAccess where
  | read (addr : Offset) (size : AccessSize)
  | write (addr : Offset) (size : AccessSize) (value : Word)
deriving DecidableEq, Repr, Inhabited

/-- One step of an agent (00_scope.md R4), or the platform's hardware reset (70_reset_and_hazards.md R340). -/
inductive Input where
  /-- A HOST access. -/
  | host (access : HostAccess)
  /-- A step of the DMA consumer (43_audio_output.md R247). -/
  | dma
  /-- A step of the USB source, delivering one byte (43_audio_output.md R250). -/
  | src (b : Byte)
  /-- The reset input is asserted (70_reset_and_hazards.md R340). -/
  | reset
deriving DecidableEq, Repr, Inhabited

end Sys2Proof
end

