-- ==== Sys2Proof/Config.lean ====
section
/-! DEFINITION. The constants of 00_scope.md R7, the parameters of R8, and the free values of the spec. An `opaque`
constant has no body: nothing in Lean can evaluate it, so a claim holds whatever its value is. -/

namespace Sys2Proof.Config

/-- `NPROF` (R7). -/
abbrev nProf : Nat := 10
/-- `NFILT` (R7). -/
abbrev nFilt : Nat := 10
/-- `FRAME_BYTES` (R7): 3 bytes for each of 2 channels. -/
abbrev frameBytes : Nat := 6
/-- `ATT_MAX` (R7). -/
abbrev attMax : Nat := 100
/-- `VOL_UNITY` (R7). -/
abbrev volUnity : Nat := 256
/-- `CRC_POLY` (R7), reflected. -/
abbrev crcPoly : Word := 0xEDB88320
/-- Size of `STORE` in bytes (20_memory.md R93). -/
abbrev storeBytes : Nat := 3816
/-- `FS` in Hz (R8): informational, no rule depends on it. -/
abbrev fs : Nat := 48000

/-- `OUT_PACK` (R8, 43_audio_output.md R235): sign-extended to 32 bits, or left-justified in 32 bits. -/
inductive OutPack where
  | sext32
  | lj32
deriving DecidableEq, Repr, Inhabited

/-- The parameters of R8 that are plain data; "the model takes each as an argument". `volCurve` lists `VOL_CURVE[db]`
for db = `VOL_DB_MIN`, `VOL_DB_MIN` + 1, ... in order. DESIGN CHOICE, safe (log 2). -/
structure Params where
  halfFrames : Nat
  prebufBytes : Nat
  srcCap : Nat
  storeMagic : Word
  storeVersion : Byte
  volDbMin : Int
  volDbMax : Int
  volCurve : List Nat
  headroom : Vector Nat 3
  preAtt : Word
  outPack : OutPack
  crcLo : Nat
  crcHi : Nat
deriving DecidableEq, Repr

/-- `HALF_BYTES` = 6 x `HALF_FRAMES` (R8). -/
abbrev Params.halfBytes (p : Params) : Nat := frameBytes * p.halfFrames

/-- The ranges of R8. The bounds on `CRC_LO` and `CRC_HI` are DEDUCED, unsafe (log 9): the checked region lies inside
the store and holds none of the 16 header bytes (42_crc32.md R202). -/
abbrev Params.wf (p : Params) : Prop :=
  (1 ≤ p.halfFrames ∧ p.halfFrames ≤ 256) ∧
  (p.halfBytes ≤ p.prebufBytes ∧ p.prebufBytes ≤ p.srcCap) ∧
  2 * p.halfBytes ≤ p.srcCap ∧
  (-32768 ≤ p.volDbMin ∧ p.volDbMin ≤ 0) ∧ (0 ≤ p.volDbMax ∧ p.volDbMax ≤ 32767) ∧
  (p.volCurve.length : Int) = p.volDbMax - p.volDbMin + 1 ∧ (∀ v ∈ p.volCurve, v ≤ volUnity) ∧
  (∀ t : Fin 3, p.headroom.get t ≤ volUnity) ∧
  16 ≤ p.crcLo ∧ p.crcLo ≤ p.crcHi ∧ p.crcHi ≤ storeBytes

/-! ## Open parameters (R8, X7): any value of the range given there -/

/-- `HALF_FRAMES` - 1. -/
opaque openHalfFrames : Fin 256
/-- `SRC_CAP` - 2 x `HALF_BYTES`. -/
opaque openSrcRoom : Nat
/-- `PREBUF_BYTES` - `HALF_BYTES`, reduced into its range. -/
opaque openPrebuf : Nat
/-- `STORE_MAGIC`. -/
opaque openMagic : Word
/-- `STORE_VERSION`. -/
opaque openVersion : Byte
/-- -`VOL_DB_MIN`. -/
opaque openVolDbBelow : Fin 32769
/-- `VOL_DB_MAX`. -/
opaque openVolDbAbove : Fin 32768
/-- `VOL_CURVE`, by distance from `VOL_DB_MIN`. -/
opaque openVolCurve : Nat → Fin 257
/-- `HEADROOM`. -/
opaque openHeadroom : Fin 3 → Fin 257

/-- `PRE_ATT`'s default (R8, X8). -/
abbrev preAttDefault : Word := 0x3F0FF59A
/-- `CRC_LO`'s default (R8). -/
abbrev crcLoDefault : Nat := 16
/-- `CRC_HI`'s default (R8). -/
abbrev crcHiDefault : Nat := 3816

/-- `HALF_FRAMES` of the open configuration: any of 1..256. -/
def halfFrames : Nat := openHalfFrames.val + 1

/-- `SRC_CAP` of the open configuration: anything from 2 x `HALF_BYTES` up. -/
def srcCap : Nat := 2 * (frameBytes * halfFrames) + openSrcRoom

/-- The parameters of the block that `State.reset` is the reset state of: the open ones open, the defaulted ones at
the spec's default (log 2, 3). -/
def params : Params where
  halfFrames := halfFrames
  prebufBytes := frameBytes * halfFrames + openPrebuf % (srcCap - frameBytes * halfFrames + 1)
  srcCap := srcCap
  storeMagic := openMagic
  storeVersion := openVersion
  volDbMin := -(openVolDbBelow.val : Int)
  volDbMax := openVolDbAbove.val
  volCurve := (List.range (openVolDbAbove.val + openVolDbBelow.val + 1)).map fun k => (openVolCurve k).val
  headroom := Vector.ofFn fun t => (openHeadroom t).val
  preAtt := preAttDefault
  outPack := .sext32
  crcLo := crcLoDefault
  crcHi := crcHiDefault

/-! ## Free values -/

/-- Byte i of `STORE` at power-on: any value (70_reset_and_hazards.md R341, X6; log 4). -/
opaque powerOnByte (i : Nat) : Byte

/-- Sign and fraction - 1 of the NaN pattern that word w of the `BQS` window shows after k cascade frames: any value
(20_memory.md R97, X4; log 6). -/
opaque nanPattern (k w : Nat) : Bool × Fin 8388607

/-- What the 32-bit `SRC_AVAIL` reads when the FIFO holds n bytes and n is no 32-bit number: 10_state.md R46 states none, and
R8 gives `SRC_CAP` no upper bound. DESIGN CHOICE: a free value, safe (log 17). -/
opaque srcAvailBeyond (n : Nat) : BitVec 32

/-- The k-th agent step that no input list fixes: any agent, access or byte (00_scope.md R4, X21; log 1). -/
opaque openInput (k : Nat) : Input

/-- The opaque type `LegacyState` of the legacy EQ collaborator (R8): its values are named by numbers (log 7). -/
structure LegacyState where
  code : Nat
deriving DecidableEq, Repr, Inhabited

/-- The initial value of the legacy EQ's state (R8, 10_state.md R56). -/
opaque legacyInit : LegacyState
/-- The new state that `LEGACY_EQ` gives for a state, samples and a volume scale (R8). -/
opaque legacyNext (leg : LegacyState) (s : List Word) (vs : Nat) : LegacyState
/-- Output sample i of `LEGACY_EQ`: any value of [-2^23, 2^23 - 1] (R8, X9). -/
opaque legacySample (leg : LegacyState) (s : List Word) (vs i : Nat) : BitVec 24

end Sys2Proof.Config
end

