-- ==== Sys2Proof/WellFormed.lean ====
section
/-! DEFINITION. Which commands are legal as operands go (30_encoding.md R116). The opcode and the reserved bits are the
decoder's checks (Decode.lean); a command's own checks (40_command.md R142 check 4) read the state and are the
meaning's. -/

namespace Sys2Proof

/-- R116, check 3 of R142: format P requires `NFR <= HALF_FRAMES` and `VS <= 256`; format R requires
`START + LEN <= 3816`; the other formats require nothing at decode. -/
def Instr.operandsLegal (halfFrames : Nat) : Instr → Bool
  | .bqProcess nfr vs => decide (nfr.toNat ≤ halfFrames) && decide (vs.toNat ≤ Config.volUnity)
  | .crcRun start len => decide (start.toNat + len.toNat ≤ Config.storeBytes)
  | .nop => true
  | .bqReset => true
  | .setActive _ => true
  | .clearActive => true
  | .profCommit _ => true
  | .profDelete _ => true
  | .aoStart => true
  | .aoStop => true
  | .aoTask => true
  | .volCompute => true
  | .eqInit => true
  | .storeSeal => true

end Sys2Proof
end

