-- ==== Sys2Proof/Decode.lean ====
section
/-! DEFINITION. Decoding a command word (30_encoding.md R110 to R120; checks 1 and 2 of 40_command.md R142), and the
encoder written from the same tables. -/

namespace Sys2Proof

/-- Why a word is not a command. Safe: the block rejects such a word with `CMDERR` and nothing else (R142). -/
inductive DecodeError where
  /-- Fewer than the four bytes of a command word (R110). -/
  | tooShort
  /-- Check 1: the opcode is not in the map of R117 (R118). -/
  | reservedOpcode
  /-- Check 2: `RSV` is not 0 (R119). -/
  | reservedBits
deriving DecidableEq, Repr

/-! ## Fields (R115) -/

/-- `OP`, bits 7:0 (R110). -/
def opField (w : Word) : BitVec 8 := w.extractLsb' 0 8
/-- `ID`, bits 15:8 of format I. -/
def idField (w : Word) : BitVec 8 := w.extractLsb' 8 8
/-- `NFR`, bits 19:8 of format P. -/
def nfrField (w : Word) : BitVec 12 := w.extractLsb' 8 12
/-- `VS`, bits 28:20 of format P. -/
def vsField (w : Word) : BitVec 9 := w.extractLsb' 20 9
/-- `START`, bits 19:8 of format R. -/
def startField (w : Word) : BitVec 12 := w.extractLsb' 8 12
/-- `LEN`, bits 31:20 of format R. -/
def lenField (w : Word) : BitVec 12 := w.extractLsb' 20 12

/-! ## Formats -/

/-- Format N: bits 31:8 must be 0 (R111). -/
def formatN (w : Word) (i : Instr) : Except DecodeError Instr :=
  if w.extractLsb' 8 24 = 0 then .ok i else .error .reservedBits

/-- Format I: bits 31:16 must be 0 (R112). -/
def formatI (w : Word) (i : BitVec 8 → Instr) : Except DecodeError Instr :=
  if w.extractLsb' 16 16 = 0 then .ok (i (idField w)) else .error .reservedBits

/-- Format P: bits 31:29 must be 0 (R113). -/
def formatP (w : Word) (i : BitVec 12 → BitVec 9 → Instr) : Except DecodeError Instr :=
  if w.extractLsb' 29 3 = 0 then .ok (i (nfrField w) (vsField w)) else .error .reservedBits

/-- Format R: no reserved bits (R114). -/
def formatR (w : Word) (i : BitVec 12 → BitVec 12 → Instr) : Except DecodeError Instr :=
  .ok (i (startField w) (lenField w))

/-- A command word as an instruction (R117). -/
def decodeWord (w : Word) : Except DecodeError Instr :=
  match (opField w).toNat with
  | 0x00 => formatN w .nop
  | 0x01 => formatN w .bqReset
  | 0x02 => formatP w .bqProcess
  | 0x03 => formatI w .setActive
  | 0x04 => formatN w .clearActive
  | 0x05 => formatI w .profCommit
  | 0x06 => formatI w .profDelete
  | 0x10 => formatN w .aoStart
  | 0x11 => formatN w .aoStop
  | 0x12 => formatN w .aoTask
  | 0x20 => formatN w .volCompute
  | 0x30 => formatR w .crcRun
  | 0x31 => formatN w .eqInit
  | 0x32 => formatN w .storeSeal
  | _ => .error .reservedOpcode

/-- The word of four bytes, the one at the lowest offset first (20_memory.md R82). -/
def wordOfBytes (b0 b1 b2 b3 : Byte) : Word := b3 ++ b2 ++ b1 ++ b0

/-- A command word from bytes in bus order, with the bytes that follow it: every command is exactly one word (R110).
The byte order is DEDUCED (log 14). -/
def decodeBytes : List Byte → Except DecodeError (Instr × List Byte)
  | b0 :: b1 :: b2 :: b3 :: rest =>
    match decodeWord (wordOfBytes b0 b1 b2 b3) with
    | .ok i => .ok (i, rest)
    | .error e => .error e
  | _ => .error .tooShort

/-! ## Encoder -/

/-- `OP` of a format N word over zero reserved bits (R111). -/
def encodeN (op : BitVec 8) : Word := 0#24 ++ op
/-- A format I word (R112). -/
def encodeI (op id : BitVec 8) : Word := 0#16 ++ id ++ op
/-- A format P word (R113). -/
def encodeP (op : BitVec 8) (nfr : BitVec 12) (vs : BitVec 9) : Word := 0#3 ++ vs ++ nfr ++ op
/-- A format R word (R114). -/
def encodeR (op : BitVec 8) (start len : BitVec 12) : Word := len ++ start ++ op

/-- The command word of an instruction (R111 to R117, R121). -/
def encode : Instr → Word
  | .nop => encodeN 0x00
  | .bqReset => encodeN 0x01
  | .bqProcess nfr vs => encodeP 0x02 nfr vs
  | .setActive id => encodeI 0x03 id
  | .clearActive => encodeN 0x04
  | .profCommit id => encodeI 0x05 id
  | .profDelete id => encodeI 0x06 id
  | .aoStart => encodeN 0x10
  | .aoStop => encodeN 0x11
  | .aoTask => encodeN 0x12
  | .volCompute => encodeN 0x20
  | .crcRun start len => encodeR 0x30 start len
  | .eqInit => encodeN 0x31
  | .storeSeal => encodeN 0x32

/-! ## The opcode table (spec/opcode_table.json), in one place -/

/-- A row: the bits that are fixed, and their values. -/
structure OpcodeRow where
  mnemonic : String
  mask : Word
  pattern : Word
deriving DecidableEq, Repr

/-- The table's row of each instruction. -/
def opcodeRow : Instr → OpcodeRow
  | .nop => ⟨"NOP", 0xFFFFFFFF, 0x00000000⟩
  | .bqReset => ⟨"BQ_RESET", 0xFFFFFFFF, 0x00000001⟩
  | .bqProcess _ _ => ⟨"BQ_PROCESS", 0xE00000FF, 0x00000002⟩
  | .setActive _ => ⟨"SET_ACTIVE", 0xFFFF00FF, 0x00000003⟩
  | .clearActive => ⟨"CLEAR_ACTIVE", 0xFFFFFFFF, 0x00000004⟩
  | .profCommit _ => ⟨"PROF_COMMIT", 0xFFFF00FF, 0x00000005⟩
  | .profDelete _ => ⟨"PROF_DELETE", 0xFFFF00FF, 0x00000006⟩
  | .aoStart => ⟨"AO_START", 0xFFFFFFFF, 0x00000010⟩
  | .aoStop => ⟨"AO_STOP", 0xFFFFFFFF, 0x00000011⟩
  | .aoTask => ⟨"AO_TASK", 0xFFFFFFFF, 0x00000012⟩
  | .volCompute => ⟨"VOL_COMPUTE", 0xFFFFFFFF, 0x00000020⟩
  | .crcRun _ _ => ⟨"CRC_RUN", 0x000000FF, 0x00000030⟩
  | .eqInit => ⟨"EQ_INIT", 0xFFFFFFFF, 0x00000031⟩
  | .storeSeal => ⟨"STORE_SEAL", 0xFFFFFFFF, 0x00000032⟩

/-- The assembler line of a command (R121), operands in decimal. -/
def Instr.asm (i : Instr) : String :=
  (opcodeRow i).mnemonic ++
    match i with
    | .bqProcess nfr vs => " " ++ toString nfr.toNat ++ ", " ++ toString vs.toNat
    | .setActive id => " " ++ toString id.toNat
    | .profCommit id => " " ++ toString id.toNat
    | .profDelete id => " " ++ toString id.toNat
    | .crcRun start len => " " ++ toString start.toNat ++ ", " ++ toString len.toNat
    | .nop => ""
    | .bqReset => ""
    | .clearActive => ""
    | .aoStart => ""
    | .aoStop => ""
    | .aoTask => ""
    | .volCompute => ""
    | .eqInit => ""
    | .storeSeal => ""

/-! ## Programs (R122, R123) -/

/-- `WR32 off, v` (R122). -/
def wr32 (off : Offset) (v : Word) : Input := .host (.write off .word v)
/-- `WR16 off, v` (R122). -/
def wr16 (off : Offset) (v : BitVec 16) : Input := .host (.write off .half (v.zeroExtend 32))
/-- `WR8 off, v` (R122). -/
def wr8 (off : Offset) (v : Byte) : Input := .host (.write off .byte (v.zeroExtend 32))
/-- `RD32 off` (R122). -/
def rd32 (off : Offset) : Input := .host (.read off .word)
/-- `CMD <command>` = `WR32 0x000, <encoding>` (R122). -/
def cmd (i : Instr) : Input := wr32 0x000 (encode i)
/-- `SRC_PUSH b0, b1, ...`: one SRC step per byte (R122). -/
def srcPush (bytes : List Byte) : List Input := bytes.map .src
/-- `DMA_STEP k`: k DMA steps (R122). -/
def dmaSteps (k : Nat) : List Input := List.replicate k .dma

/-- `CRC_STORE` (R123). -/
def crcStore : List Input := [cmd (.crcRun 16 3800)]
/-- `PROF_SWITCH id` (R123). -/
def profSwitch (id : BitVec 8) : List Input := [cmd (.setActive id), cmd .bqReset]
/-- `AO_RESTART` (R123). -/
def aoRestart : List Input := [cmd .aoStop, cmd .aoStart]
/-- Byte i of an image, as an 8-bit write to the `STORE` window (70_reset_and_hazards.md R352). -/
def storeByteWrite (i : Nat) (b : Byte) : Input := wr8 (BitVec.ofNat 15 (0x1000 + i)) b
/-- `BOOT_EQ`: HOST copies the flash image into `STORE`, then `EQ_INIT` (R123, R352). R123 gives the copy no access width
and no order, and R352 allows any width: one 8-bit write for each byte, in rising order, is the model's DESIGN CHOICE
(log 18). -/
def bootEq (image : List Byte) : List Input := image.mapIdx storeByteWrite ++ [cmd .eqInit]

/-! ## The host's view -/

/-- The four bytes of a word in bus order (20_memory.md R82). -/
def bytesOfWord (w : Word) : List Byte :=
  [w.extractLsb' 0 8, w.extractLsb' 8 8, w.extractLsb' 16 8, w.extractLsb' 24 8]

/-- The command word whose low `nbits` bits are those of `w` and whose other bits are 0. -/
def tableWord (nbits w : Nat) : Word := BitVec.ofNat 32 (w % 2 ^ nbits)

/-- The instruction the decoder reads from a word given as spec/opcode_table.json numbers its bits. -/
def decodeTableWord (nbits w : Nat) : Option Instr :=
  match decodeBytes (bytesOfWord (tableWord nbits w)) with
  | .ok (i, _) => some i
  | .error _ => none

end Sys2Proof
end

