-- ==== Sys2Proof/Machine/State.lean ====
section
/-! DEFINITION. The state of the block (10_state.md R32 to R57; INVENTORY.md, State), and its value after hardware
reset (70_reset_and_hazards.md R340). -/

namespace Sys2Proof.Machine

open Sys2Proof

/-- `STATE` (R50). -/
inductive PipeState where
  | stopped
  | prebuf
  | streaming
deriving DecidableEq, Repr, Inhabited

/-- `STATUS.REASON` (R37): why the last EQ_INIT rejected the store. -/
inductive Reason where
  | none
  | magic
  | version
  | crc
deriving DecidableEq, Repr, Inhabited

/-- `STATUS.LAST_FILL` (R37): the kind of the last serviced half. -/
inductive FillKind where
  | none
  | full
  | part
  | hold
deriving DecidableEq, Repr, Inhabited

/-- The running state of one filter slot on one channel: the two DF2T accumulators (R51). -/
structure Delay where
  s1 : F32
  s2 : F32
deriving DecidableEq, Repr, Inhabited

/-- One element of the output trace `OUT` (R57). -/
structure OutFrame where
  w0 : Word
  w1 : Word
  amp : Bool
  mute : Bool
deriving DecidableEq, Repr, Inhabited

/-- The bus response to the last HOST access: the model's observation, never read by the block (log 5). -/
inductive Reply where
  /-- No access since reset. -/
  | idle
  /-- A read returned this value, zero-extended to a word. -/
  | data (value : Word)
  /-- A write was accepted. -/
  | ack
  /-- `BusFault(addr)`: the access had no effect (60_exceptions.md R311). -/
  | busFault (addr : Offset)
deriving DecidableEq, Repr, Inhabited

/-- `STORE` as a list of (index, byte) cells: indexes strictly rising, below 3816, and no cell 0, which is what an
unlisted index reads as (`Memory.wf`, Machine/Ops.lean). -/
structure Memory where
  cells : List Host.Cell
deriving DecidableEq, Repr, Inhabited

/-- The state (R32). Fields from `params` on are the model's own (INVENTORY.md). -/
structure State where
  /-- `STATUS.STATE`. -/
  pipe : PipeState
  /-- `NF[0]`. -/
  nf0 : Bool
  /-- `NF[1]`. -/
  nf1 : Bool
  /-- `STATUS.DMA_RUN`. -/
  dmaRun : Bool
  /-- Output `AMP_EN` and `STATUS.AMP_EN`. -/
  ampEn : Bool
  /-- Output `OUT_MUTE` and `STATUS.OUT_MUTE`. -/
  outMute : Bool
  /-- `STATUS.STORE_VALID`. -/
  storeValid : Bool
  /-- `STATUS.REASON`. -/
  reason : Reason
  /-- `STATUS.CMDERR`. -/
  cmdErr : Bool
  /-- `STATUS.LATE`. -/
  late : Bool
  /-- `STATUS.LAST_FILL`. -/
  lastFill : FillKind
  /-- `CTRL.SWAP_LR`. -/
  swapLr : Bool
  /-- `CTRL.PWR_TIER`. -/
  pwrTier : Fin 3
  /-- `CTRL.HOST_MUTE`. -/
  hostMute : Bool
  /-- `CTRL.LOCAL_MUTE`. -/
  localMute : Bool
  /-- `CTRL.IRQ_EN`. -/
  irqEn : Bool
  /-- `HOST_VOL`, in dB. -/
  hostVol : Int
  /-- `LOCAL_ATT`. -/
  localAtt : Nat
  /-- `VOLSCALE`. -/
  volScale : Nat
  /-- `ACTIVE.ID`; `none` is NONE, 0xFF (R42). -/
  active : Option (Fin 10)
  /-- `CRC_RESULT`. -/
  crcResult : Word
  /-- `FULL_CNT`. -/
  fullCnt : Word
  /-- `PART_CNT`. -/
  partCnt : Word
  /-- `HOLD_CNT`. -/
  holdCnt : Word
  /-- `HELD_L`. -/
  heldL : Word
  /-- `HELD_R`. -/
  heldR : Word
  /-- `DMA_POS`. -/
  dmaPos : Nat
  /-- `BQS[f][c]` at index 2f + c. -/
  bqs : Vector Delay 20
  /-- `STORE`. -/
  store : Memory
  /-- `BUF`. -/
  buf : List Word
  /-- `WORK`. -/
  work : List Word
  /-- `FIFO`, oldest byte first. -/
  fifo : List Byte
  /-- `LEG`. -/
  leg : Config.LegacyState
  /-- `OUT`, oldest frame first. -/
  out : List OutFrame
  /-- The parameters of 00_scope.md R8. -/
  params : Config.Params
  /-- The agent steps to come, next first (log 1). -/
  inputs : List Input
  /-- Open agent steps drawn so far (log 1). -/
  drawn : Nat
  /-- Frames the cascade has processed (log 6). -/
  cascadeFrames : Nat
  /-- The bus response to the last HOST access (log 5). -/
  reply : Reply
deriving DecidableEq, Repr

/-- Why a step could fault: nothing does. The block takes no traps and has no stuck state (60_exceptions.md R310,
93_implementation_defined.md X23); `BusFault` is a response to one access, after which "the next HOST access proceeds
normally" (R310), so it is a `Reply` (log 5). Safe: the type has no value, so no claim can rest on a fault. -/
inductive Fault : Type
deriving DecidableEq, Repr

/-- Why a step could be refused. -/
inductive Refusal where
  /-- Raised by `exec` only, for an instruction without a meaning: there is none. Safe. -/
  | notModelled (mnemonic : String)
deriving DecidableEq, Repr

/-- `BQS` with every accumulator +0.0 (R51). -/
def zeroBqs : Vector Delay 20 := Vector.replicate 20 ⟨F32.zero, F32.zero⟩

/-- The cells of an image of n bytes: those that are not 0. -/
def imageCells (image : Nat → Byte) (n : Nat) : List Host.Cell :=
  (List.range n).filterMap fun i => if image i = 0 then none else some (i, image i)

/-- `STORE` at power-on: every byte any value (R341, X6; log 4). -/
def powerOnStore : Memory := ⟨imageCells Config.powerOnByte Config.storeBytes⟩

/-- The state after hardware reset (R340) of a block with parameters `p` whose store holds `store` (R341: "a model
takes the reset image as an argument"). -/
def State.resetWith (p : Config.Params) (store : Memory) : State where
  pipe := .stopped
  nf0 := false
  nf1 := false
  dmaRun := true
  ampEn := false
  outMute := false
  storeValid := false
  reason := .none
  cmdErr := false
  late := false
  lastFill := .none
  swapLr := false
  pwrTier := 0
  hostMute := false
  localMute := false
  irqEn := false
  hostVol := 0
  localAtt := 0
  volScale := 0
  active := none
  crcResult := 0
  fullCnt := 0
  partCnt := 0
  holdCnt := 0
  heldL := 0
  heldR := 0
  dmaPos := 0
  bqs := zeroBqs
  store := store
  buf := List.replicate (4 * p.halfFrames) 0
  work := List.replicate (2 * p.halfFrames) 0
  fifo := []
  leg := Config.legacyInit
  out := []
  params := p
  inputs := []
  drawn := 0
  cascadeFrames := 0
  reply := .idle

/-- The machine right after reset (R340), with the open parameters open and the store unspecified. -/
def State.reset : State := State.resetWith Config.params powerOnStore

end Sys2Proof.Machine
end

