-- ==== Sys2Proof/Machine/Ops.lean ====
section
/-! DEFINITION. The named operations over memory and registers: `STORE` bytes and fields (20_memory.md R82 to R94), `BQS`
slots (R51, R97), rejection of a command (40_command.md R142) and the DMA restart (43_audio_output.md R246). The block
takes no exception and returns from none (60_exceptions.md R310, R318, R319): what stands in their place is
`State.reject`, the one way a command fails, and the `BusFault` reply of the bus (Machine/Bus.lean). -/

namespace Sys2Proof.Machine

open Sys2Proof

/-! ## `STORE` -/

/-- What a byte of `STORE` that no cell lists reads as. `State.reset` lists the open power-on bytes (log 4). -/
def Memory.unlisted : Byte := 0

/-- The canonical form: indexes strictly rising and inside the store, no cell equal to what an unlisted byte reads as. -/
abbrev Memory.wf (m : Memory) : Prop :=
  m.cells.Pairwise (fun x y => x.1 < y.1) ∧
    ∀ c ∈ m.cells, c.1 < Config.storeBytes ∧ c.2 ≠ Memory.unlisted

/-- The byte a cell list gives an index. -/
def lookupCell (a : Nat) : List Host.Cell → Byte
  | [] => Memory.unlisted
  | (b, v) :: rest => if a = b then v else lookupCell a rest

/-- A cell list with index `a` set to `v`, kept in canonical form. -/
def insertCell (a : Nat) (v : Byte) : List Host.Cell → List Host.Cell
  | [] => if v = Memory.unlisted then [] else [(a, v)]
  | (b, w) :: rest =>
    if a < b then (if v = Memory.unlisted then (b, w) :: rest else (a, v) :: (b, w) :: rest)
    else if a = b then (if v = Memory.unlisted then rest else (a, v) :: rest)
    else (b, w) :: insertCell a v rest

/-- `STORE[i]` and `rd8(i)` (00_scope.md R12). -/
def Memory.rd8 (m : Memory) (i : Nat) : Byte := lookupCell i m.cells

/-- `STORE[i] <- v` and `wr8` (R12). The store has 3816 bytes (R93): no rule writes past them. -/
def Memory.wr8 (m : Memory) (i : Nat) (v : Byte) : Memory :=
  if i < Config.storeBytes then ⟨insertCell i v m.cells⟩ else m

/-- `rd16(i)`, little-endian (R12, R82). -/
def Memory.rd16 (m : Memory) (i : Nat) : BitVec 16 := m.rd8 (i + 1) ++ m.rd8 i

/-- `rd32(i) = STORE[i+3] ++ STORE[i+2] ++ STORE[i+1] ++ STORE[i]` (R12). -/
def Memory.rd32 (m : Memory) (i : Nat) : Word :=
  m.rd8 (i + 3) ++ m.rd8 (i + 2) ++ m.rd8 (i + 1) ++ m.rd8 i

/-- `wr16`, little-endian (R12). -/
def Memory.wr16 (m : Memory) (i : Nat) (v : BitVec 16) : Memory :=
  (m.wr8 i (v.extractLsb' 0 8)).wr8 (i + 1) (v.extractLsb' 8 8)

/-- `wr32`, little-endian (R12). -/
def Memory.wr32 (m : Memory) (i : Nat) (v : Word) : Memory :=
  (((m.wr8 i (v.extractLsb' 0 8)).wr8 (i + 1) (v.extractLsb' 8 8)).wr8 (i + 2)
    (v.extractLsb' 16 8)).wr8 (i + 3) (v.extractLsb' 24 8)

/-- `STORE[start .. start+len-1]`, in rising order. -/
def Memory.bytes (m : Memory) (start len : Nat) : List Byte :=
  (List.range len).map fun k => m.rd8 (start + k)

/-- Bytes i .. i+n-1 all 0. -/
def Memory.zero (m : Memory) (i : Nat) : Nat → Memory
  | 0 => m
  | n + 1 => (m.wr8 i 0).zero (i + 1) n

/-! ## Store layout -/

/-- `P(p) = 16 + 380 x p` (R91). -/
def slotBase (p : Fin 10) : Nat := 16 + 380 * p.val

/-- `Q(p,k) = P(p) + 20 + 36 x k` (R92). -/
def recordBase (p k : Fin 10) : Nat := slotBase p + 20 + 36 * k.val

/-- Byte of `filter_count` of slot p (R91). -/
def countByte (p : Fin 10) : Nat := slotBase p + 16

/-- Header byte `profile_count` (R90). -/
def profileCountByte : Nat := 5

/-- The slots, and the filters of a slot, in order (00_scope.md R7). -/
def tenth : List (Fin 10) := [0, 1, 2, 3, 4, 5, 6, 7, 8, 9]

/-- `empty(p)`: name empty or `filter_count` 0 (41_biquad.md R157). -/
def emptySlot (m : Memory) (p : Fin 10) : Bool :=
  m.rd8 (slotBase p) == 0 || m.rd8 (countByte p) == 0

/-- `recount()`: the number of non-empty slots (41_biquad.md R167). -/
def recount (m : Memory) : Nat := tenth.countP fun p => !emptySlot m p

/-- `valid_active`, as the profile it is valid for (41_biquad.md R157). -/
def State.validActive (s : State) : Option (Fin 10) :=
  match s.active with
  | some p => if emptySlot s.store p then none else some p
  | none => none

/-! ## `BQS` -/

/-- The place of `BQS[f][c]`. -/
def bqsIndex (f : Fin 10) (c : Fin 2) : Fin 20 := ⟨2 * f.val + c.val, by omega⟩

/-- `BQS[f][c]`. -/
def getDelay (b : Vector Delay 20) (f : Fin 10) (c : Fin 2) : Delay := b.get (bqsIndex f c)

/-- `BQS[f][c] <- d`. -/
def setDelay (b : Vector Delay 20) (f : Fin 10) (c : Fin 2) (d : Delay) : Vector Delay 20 :=
  b.set (bqsIndex f c).val d (bqsIndex f c).isLt

/-! ## Updates of the state shared by several commands -/

/-- `cmderr()`: a rejected command sets the sticky `CMDERR` and changes no other state (40_command.md R142). -/
def State.reject (s : State) : State := { s with cmdErr := true }

/-- Every accumulator of `BQS` +0.0 (41_biquad.md R161, R169). -/
def State.clearBqs (s : State) : State := { s with bqs := zeroBqs }

/-- Both halves of `BUF` to silence (43_audio_output.md R241, R242). -/
def State.silence (s : State) : State := { s with buf := List.replicate (4 * s.params.halfFrames) 0 }

/-- `dma_restart()` (43_audio_output.md R246). -/
def State.dmaRestart (s : State) : State :=
  { s with dmaPos := 0, nf0 := false, nf1 := false, dmaRun := true }

/-- `STORE <- m`. -/
def State.withStore (s : State) (m : Memory) : State := { s with store := m }

/-- `ACTIVE <- id`, `none` for 0xFF. -/
def State.withActive (s : State) (id : Option (Fin 10)) : State := { s with active := id }

/-- `avail = |FIFO|` (00_scope.md R12). -/
def State.avail (s : State) : Nat := s.fifo.length

/-- `NF[h]`: the needs-fill flag of half h (10_state.md R49). -/
def State.nf (s : State) (h : Fin 2) : Bool := if h = 0 then s.nf0 else s.nf1

/-- `NF[h] <- v`. -/
def State.setNf (s : State) (h : Fin 2) (v : Bool) : State :=
  if h = 0 then { s with nf0 := v } else { s with nf1 := v }

end Sys2Proof.Machine
end

