-- ==== Sys2Proof/Machine/Operands.lean ====
section
/-! DEFINITION. The operand forms: a profile slot (format I), a frame count and scale (format P), a store region
(format R). Operand fields are zero-extended (30_encoding.md R115); what each command requires of them is R116 and
40_command.md R142, and is checked by the command's meaning (log 11). -/

namespace Sys2Proof.Machine

open Sys2Proof

/-- The slot a format I operand names, when `ID < 10` (R142, check 4). -/
def slotOperand (id : BitVec 8) : Option (Fin 10) :=
  if h : id.toNat < 10 then some ⟨id.toNat, h⟩ else none

/-- R116 in a state: the operands of the command are legal for the block's `HALF_FRAMES` (R142, check 3). -/
def operandsOk (s : State) (i : Instr) : Bool := i.operandsLegal s.params.halfFrames

end Sys2Proof.Machine
end

