-- ==== Sys2Proof/Machine/Flags.lean ====
section
/-! DEFINITION. The status and control words (10_state.md R34 to R38) and the interrupt output (60_exceptions.md
R316). -/

namespace Sys2Proof.Machine

open Sys2Proof

/-- A flag as a bit. -/
def bit (b : Bool) : Nat := if b then 1 else 0

/-- The code of `STATE` (R50). -/
def PipeState.code : PipeState → Nat
  | .stopped => 0
  | .prebuf => 1
  | .streaming => 2

/-- The code of `REASON` (R37). -/
def Reason.code : Reason → Nat
  | .none => 0
  | .magic => 1
  | .version => 2
  | .crc => 3

/-- The code of `LAST_FILL` (R37). -/
def FillKind.code : FillKind → Nat
  | .none => 0
  | .full => 1
  | .part => 2
  | .hold => 3

/-- `IRQ`: a level, a function of the state as it stands (R316). -/
def State.irq (s : State) : Bool :=
  s.irqEn &&
    ((decide (s.pipe = .streaming) && (s.nf0 || s.nf1)) ||
      (decide (s.pipe = .prebuf) && decide (s.params.prebufBytes ≤ s.avail)))

/-- The `STATUS` word (R37); bits 31:15 read 0. -/
def State.statusWord (s : State) : Word :=
  BitVec.ofNat 32
    (s.pipe.code + bit s.nf0 * 2 ^ 2 + bit s.nf1 * 2 ^ 3 + bit s.dmaRun * 2 ^ 4 + bit s.ampEn * 2 ^ 5 +
      bit s.outMute * 2 ^ 6 + bit s.storeValid * 2 ^ 7 + s.reason.code * 2 ^ 8 + bit s.cmdErr * 2 ^ 10 +
      bit s.late * 2 ^ 11 + s.lastFill.code * 2 ^ 12 + bit s.irq * 2 ^ 14)

/-- A write to `STATUS`: 1 in bit 10 clears `CMDERR`, 1 in bit 11 clears `LATE`; nothing else (R38). -/
def State.writeStatus (s : State) (w : Word) : State :=
  { s with cmdErr := s.cmdErr && !w.getLsbD 10, late := s.late && !w.getLsbD 11 }

/-- The `CTRL` word (R34); bits 31:6 read 0. -/
def State.ctrlWord (s : State) : Word :=
  BitVec.ofNat 32
    (bit s.swapLr + s.pwrTier.val * 2 + bit s.hostMute * 2 ^ 3 + bit s.localMute * 2 ^ 4 + bit s.irqEn * 2 ^ 5)

/-- The tier a write of the 2-bit field `t` stores: 3 stores 0 (R35). -/
def legalTier (t : Nat) : Fin 3 := if h : t < 3 then ⟨t, h⟩ else 0

/-- A write to `CTRL` (R35); bits 31:6 are ignored. -/
def State.writeCtrl (s : State) (w : Word) : State :=
  { s with
    swapLr := w.getLsbD 0
    pwrTier := legalTier (w.extractLsb' 1 2).toNat
    hostMute := w.getLsbD 3
    localMute := w.getLsbD 4
    irqEn := w.getLsbD 5 }

/-- What a write of w to `HOST_VOL` stores: `clamp(sext_16(w[15:0]), VOL_DB_MIN, VOL_DB_MAX)` (R39). -/
def legalVolume (p : Config.Params) (w : Word) : Int :=
  min (max (w.extractLsb' 0 16).toInt p.volDbMin) p.volDbMax

/-- A write to `HOST_VOL` (R39). -/
def State.writeHostVol (s : State) (w : Word) : State := { s with hostVol := legalVolume s.params w }

/-- A write to `LOCAL_ATT` stores `min(w[7:0], 100)` (R40). -/
def State.writeLocalAtt (s : State) (w : Word) : State :=
  { s with localAtt := min (w.extractLsb' 0 8).toNat Config.attMax }

end Sys2Proof.Machine
end

