-- ==== Sys2Proof/Machine/Float.lean ====
section
/-! DEFINITION. IEEE 754 binary32 arithmetic (00_scope.md R11, 41_biquad.md R150): round to nearest, ties to even,
subnormals kept, no fused operation, no exception flag. A finite value is an exact integer multiple of 2^-149, so each
operation is computed exactly in integers and rounded once. The corner cases R11 leaves to "IEEE 754" (signed zeros,
infinities, overflow) are the standard's: PRESUMED, unsafe (log 8). -/

namespace Sys2Proof.F32

/-- A value the format has: a significand below 2^24, normalised unless the exponent is the least, and the exponent in
the format's range. -/
def canonical : F32 → Bool
  | .nan => true
  | .inf _ => true
  | .fin _ e m => decide (m < 2 ^ 24 ∧ e ≤ 253 ∧ (e = 0 ∨ 2 ^ 23 ≤ m))

/-- `F(b)`: 32 bits read as a binary32 value (R11). -/
def ofBits (b : Word) : F32 :=
  let neg := b.toNat / 2 ^ 31 == 1
  let ef := b.toNat / 2 ^ 23 % 2 ^ 8
  let frac := b.toNat % 2 ^ 23
  if ef = 255 then (if frac = 0 then .inf neg else .nan)
  else if ef = 0 then .fin neg 0 frac
  else .fin neg (ef - 1) (2 ^ 23 + frac)

/-- The bit pattern of a sign, an exponent field and a fraction. -/
def pattern (neg : Bool) (ef frac : Nat) : Word :=
  BitVec.ofNat 32 ((if neg then 2 ^ 31 else 0) + ef * 2 ^ 23 + frac)

/-- `B(f)`: the bit pattern of a value (R11); for a NaN, sign and fraction are those given (20_memory.md R97). -/
def toBits (nanSign : Bool) (nanFrac : Nat) : F32 → Word
  | .nan => pattern nanSign 255 nanFrac
  | .inf neg => pattern neg 255 0
  | .fin neg e m => if m < 2 ^ 23 then pattern neg 0 m else pattern neg (e + 1) (m - 2 ^ 23)

/-- m / 2^k rounded to the nearest integer, ties to even. -/
def roundShift (m k : Nat) : Nat :=
  let q := m / 2 ^ k
  let r := m % 2 ^ k
  if 2 * r < 2 ^ k then q
  else if 2 ^ k < 2 * r then q + 1
  else if k = 0 then q
  else q + q % 2

/-- The value with significand m at exponent e, where m may have reached 2^24 by rounding: the next exponent, and
infinity past the largest. -/
def carry (neg : Bool) (e m : Nat) : F32 :=
  if m < 2 ^ 24 then (if 253 < e then .inf neg else .fin neg e m)
  else (if 253 < e + 1 then .inf neg else .fin neg (e + 1) (m / 2))

/-- The binary32 value nearest to (-1)^neg × m × 2^(x - 298), ties to even: `x` is an exponent in units of 2^-298, so
that a product of two values needs no negative exponent. -/
def round (neg : Bool) (m x : Nat) : F32 :=
  let top := Nat.log2 m + 1 + x
  -- exponent e so that m × 2^(x - 298) < 2^24 × 2^(e - 149), and at least 0
  let e := top - (24 + 149)
  if x ≤ e + 149 then carry neg e (roundShift m (e + 149 - x))
  else carry neg e (m * 2 ^ (x - (e + 149)))

/-- -x. -/
def neg : F32 → F32
  | .nan => .nan
  | .inf s => .inf !s
  | .fin s e m => .fin (!s) e m

/-- A finite value's integer multiple of 2^(b - 149), for b at most its exponent. -/
def scaled (s : Bool) (e m b : Nat) : Int :=
  if s then -((m * 2 ^ (e - b) : Nat) : Int) else ((m * 2 ^ (e - b) : Nat) : Int)

/-- `fadd` (R11). -/
def fadd : F32 → F32 → F32
  | .nan, _ => .nan
  | _, .nan => .nan
  | .inf s, .inf t => if s = t then .inf s else .nan
  | .inf s, .fin _ _ _ => .inf s
  | .fin _ _ _, .inf t => .inf t
  | .fin s e m, .fin t f n =>
    let b := min e f
    let sum := scaled s e m b + scaled t f n b
    if sum = 0 then .fin (s && t) 0 0
    else round (decide (sum < 0)) sum.natAbs (b + 149)

/-- `fsub` (R11). -/
def fsub (a b : F32) : F32 := fadd a (neg b)

/-- `fmul` (R11). -/
def fmul : F32 → F32 → F32
  | .nan, _ => .nan
  | _, .nan => .nan
  | .inf s, .inf t => .inf (s != t)
  | .inf s, .fin t _ n => if n = 0 then .nan else .inf (s != t)
  | .fin s _ m, .inf t => if m = 0 then .nan else .inf (s != t)
  | .fin s e m, .fin t f n =>
    if m * n = 0 then .fin (s != t) 0 0 else round (s != t) (m * n) (e + f)

/-- `i2f`: a signed integer to binary32, rounded to nearest even (R11). -/
def i2f (v : Int) : F32 := if v = 0 then zero else round (decide (v < 0)) v.natAbs 298

/-- |t| of a finite value, rounded toward zero. -/
def truncMag (e m : Nat) : Nat := if 149 ≤ e then m * 2 ^ (e - 149) else m / 2 ^ (149 - e)

/-- `f2s24` (41_biquad.md R156): NaN to 0, saturating, toward zero. For the integer bounds of R156, `t >= 8388607.0`
is `truncMag >= 8388607` on a positive t, and `t <= -8388608.0` is `truncMag >= 8388608` on a negative one. -/
def f2s24 : F32 → Int
  | .nan => 0
  | .inf false => 8388607
  | .inf true => -8388608
  | .fin false e m => min (truncMag e m : Int) 8388607
  | .fin true e m => max (-(truncMag e m : Int)) (-8388608)

end Sys2Proof.F32
end

