-- ==== Sys2Proof/Machine/Biquad.lean ====
section
/-! DEFINITION. The biquad cascade (41_biquad.md R150 to R160) and the six commands of its family (R161 to R169). -/

namespace Sys2Proof.Machine

open Sys2Proof

/-! ## The cascade -/

/-- The five coefficients of a filter; a0 = 1 (R152). -/
structure Coefs where
  b0 : F32
  b1 : F32
  b2 : F32
  a1 : F32
  a2 : F32
deriving DecidableEq, Repr

/-- Filter k of slot p, read from the store at each use (R152). -/
def filterCoefs (m : Memory) (p k : Fin 10) : Coefs where
  b0 := F32.ofBits (m.rd32 (recordBase p k))
  b1 := F32.ofBits (m.rd32 (recordBase p k + 4))
  b2 := F32.ofBits (m.rd32 (recordBase p k + 8))
  a1 := F32.ofBits (m.rd32 (recordBase p k + 12))
  a2 := F32.ofBits (m.rd32 (recordBase p k + 16))

/-- `runs(p, k)`: enabled and not off (R153). -/
def filterRuns (m : Memory) (p k : Fin 10) : Bool :=
  m.rd8 (recordBase p k + 33) != 0 && m.rd8 (recordBase p k + 32) != 0

/-- The output of one DF2T section (R154). -/
def sectionOut (co : Coefs) (d : Delay) (x : F32) : F32 := F32.fadd (F32.fmul co.b0 x) d.s1

/-- The new state of one DF2T section with input x and output y; s1' uses the old s2 (R154). -/
def sectionNext (co : Coefs) (d : Delay) (x y : F32) : Delay where
  s1 := F32.fadd (F32.fsub (F32.fmul co.b1 x) (F32.fmul co.a1 y)) d.s2
  s2 := F32.fsub (F32.fmul co.b2 x) (F32.fmul co.a2 y)

/-- The number of filters the cascade reads: `min(filter_count, 10)` (R155). -/
def filterCount (m : Memory) (p : Fin 10) : Nat := min (m.rd8 (countByte p)).toNat Config.nFilt

/-- The filters in `ks`, in order, on one sample of channel c: new `BQS` and output (R155). -/
def cascadeFrom (m : Memory) (p : Fin 10) (c : Fin 2) : List (Fin 10) → Vector Delay 20 → F32 → Vector Delay 20 × F32
  | [], b, x => (b, x)
  | k :: ks, b, x =>
    if filterRuns m p k then
      let y := sectionOut (filterCoefs m p k) (getDelay b k c) x
      cascadeFrom m p c ks (setDelay b k c (sectionNext (filterCoefs m p k) (getDelay b k c) x y)) y
    else cascadeFrom m p c ks b x

/-- `cascade(p, c, x)`: filters 0..nf-1 (R155). -/
def cascade (m : Memory) (p : Fin 10) (c : Fin 2) (b : Vector Delay 20) (x : F32) : Vector Delay 20 × F32 :=
  cascadeFrom m p c (tenth.take (filterCount m p)) b x

/-- 2^-23 = F(0x3400_0000) (R151). -/
def inputScale : F32 := F32.ofBits 0x34000000
/-- 2^23 = F(0x4B00_0000) (R156). -/
def outputScale : F32 := F32.ofBits 0x4B000000
/-- 2^-8 = F(0x3B80_0000) (R158). -/
def volumeUnit : F32 := F32.ofBits 0x3B800000

/-- `x_in(v, g)`: the full 32-bit word is converted (R151). -/
def sampleIn (v : Word) (g : F32) : F32 := F32.fmul (F32.fmul (F32.i2f v.toInt) inputScale) g

/-- A cascade output as a sample word: scaled by 2^23 and converted by `f2s24` (R156). -/
def sampleOut (y : F32) : Word := BitVec.ofInt 32 (F32.f2s24 (F32.fmul y outputScale))

/-- The call gain: `PRE_ATT` x vs/256 (R158). -/
def callGain (preAtt : Word) (vs : Nat) : F32 :=
  F32.fmul (F32.ofBits preAtt) (F32.fmul (F32.i2f vs) volumeUnit)

/-- The words of `S` in order, the first on channel c and alternating: new `BQS` and output words (R159, R160). -/
def cascadeWords (m : Memory) (p : Fin 10) (g : F32) : Fin 2 → Vector Delay 20 → List Word → Vector Delay 20 × List Word
  | _, b, [] => (b, [])
  | c, b, v :: rest =>
    match cascade m p c b (sampleIn v g) with
    | (b', y) =>
      match cascadeWords m p g (c + 1) b' rest with
      | (b'', out) => (b'', sampleOut y :: out)

/-- `bq_process(S, n, vs)` on the 2n words of `S` (R159): the new state and samples. With no valid active profile
nothing changes. `cascadeFrames` counts the frames processed (log 6). -/
def bqProcess (s : State) (words : List Word) (vs : Nat) : State × List Word :=
  match s.validActive with
  | none => (s, words)
  | some p =>
    match cascadeWords s.store p (callGain s.params.preAtt vs) 0 s.bqs words with
    | (b, out) => ({ s with bqs := b, cascadeFrames := s.cascadeFrames + words.length / 2 }, out)

/-! ## Commands -/

/-- NOP: nothing (40_command.md R143). -/
def execNop (s : State) : Host.Outcome State Fault Refusal := .next s

/-- BQ_RESET (R161). -/
def execBqReset (s : State) : Host.Outcome State Fault Refusal := .next s.clearBqs

/-- The effect of BQ_PROCESS with legal operands: the first 2 x NFR words of `WORK` are processed in place (R162). -/
def bqProcessWork (s : State) (nfr : BitVec 12) (vs : BitVec 9) : State :=
  match bqProcess s (s.work.take (2 * nfr.toNat)) vs.toNat with
  | (s', out) => { s' with work := out ++ s.work.drop (2 * nfr.toNat) }

/-- BQ_PROCESS (R162; operand check R116). -/
def execBqProcess (nfr : BitVec 12) (vs : BitVec 9) (s : State) : Host.Outcome State Fault Refusal :=
  .next (if operandsOk s (.bqProcess nfr vs) then bqProcessWork s nfr vs else s.reject)

/-- SET_ACTIVE (R163). -/
def execSetActive (id : BitVec 8) (s : State) : Host.Outcome State Fault Refusal :=
  .next (match slotOperand id with
    | some p => if emptySlot s.store p then s.reject else s.withActive (some p)
    | none => s.reject)

/-- CLEAR_ACTIVE (R164). -/
def execClearActive (s : State) : Host.Outcome State Fault Refusal := .next (s.withActive none)

/-- `STORE[5] <- recount()` (R165, R166, R167). -/
def Memory.recounted (m : Memory) : Memory := m.wr8 profileCountByte (BitVec.ofNat 8 (recount m))

/-- The store after PROF_COMMIT of slot p: name terminated, count clamped, slots recounted (R165). -/
def commitStore (m : Memory) (p : Fin 10) : Memory :=
  let named := m.wr8 (slotBase p + 15) 0
  (named.wr8 (countByte p) (BitVec.ofNat 8 (min (named.rd8 (countByte p)).toNat Config.nFilt))).recounted

/-- PROF_COMMIT (R165). -/
def execProfCommit (id : BitVec 8) (s : State) : Host.Outcome State Fault Refusal :=
  .next (match slotOperand id with
    | some p => s.withStore (commitStore s.store p)
    | none => s.reject)

/-- The store after PROF_DELETE of slot p: the slot zeroed, slots recounted (R166). -/
def deleteStore (m : Memory) (p : Fin 10) : Memory := (m.zero (slotBase p) 380).recounted

/-- PROF_DELETE (R166). -/
def execProfDelete (id : BitVec 8) (s : State) : Host.Outcome State Fault Refusal :=
  .next (match slotOperand id with
    | some p => (s.withStore (deleteStore s.store p)).withActive (if s.active = some p then none else s.active)
    | none => s.reject)

end Sys2Proof.Machine
end

