-- ==== Sys2Proof/Machine/Volume.lean ====
section
/-! DEFINITION. The volume curve multiplier (44_volume.md R290 to R298). -/

namespace Sys2Proof.Machine

open Sys2Proof

/-- `V(db) := VOL_CURVE[db]` (R291). `HOST_VOL` always lies in the table (R39); outside it, which no run reaches, 0
(log 13). -/
def hostCurve (p : Config.Params) (db : Int) : Nat := p.volCurve.getD (db - p.volDbMin).toNat 0

/-- `H(t) := HEADROOM[t]` (R292). -/
def headroomOf (p : Config.Params) (t : Fin 3) : Nat := p.headroom.get t

/-- `L(att) := floor(att x att x 256 / 10000)` (R293). -/
def localCurve (att : Nat) : Nat := att * att * 256 / 10000

/-- The three factors combined, with a right shift by 8 after each product (R294). -/
def scaleProduct (v h l : Nat) : Nat := v * h / 256 * l / 256

/-- `volscale()` (R294): 0 under either mute. -/
def State.volscale (s : State) : Nat :=
  if s.hostMute || s.localMute then 0
  else scaleProduct (hostCurve s.params s.hostVol) (headroomOf s.params s.pwrTier) (localCurve s.localAtt)

/-- `VOLSCALE <- volscale()` (R240, R244, R296). -/
def State.latchVolume (s : State) : State := { s with volScale := s.volscale }

/-- VOL_COMPUTE (R296). -/
def execVolCompute (s : State) : Host.Outcome State Fault Refusal := .next s.latchVolume

end Sys2Proof.Machine
end

