-- ==== Sys2Proof/Machine/AudioOutput.lean ====
section
/-! DEFINITION. The audio output double buffer: fill engine, the commands AO_START, AO_STOP and AO_TASK, and the steps of
the DMA and SRC agents (43_audio_output.md R230 to R253). -/

namespace Sys2Proof.Machine

open Sys2Proof

/-! ## Samples -/

/-- `unpack`: 3-byte little-endian signed samples (R231). -/
def unpack : List Byte → List Word
  | b0 :: b1 :: b2 :: rest => (b2 ++ b1 ++ b0 : BitVec 24).signExtend 32 :: unpack rest
  | _ => []

/-- The two samples of every frame exchanged (R232). -/
def swapFrames : List Word → List Word
  | a :: b :: rest => b :: a :: swapFrames rest
  | rest => rest

/-- `pack` (R235). -/
def pack (f : Config.OutPack) (v : Word) : Word :=
  match f with
  | .sext32 => v
  | .lj32 => v <<< 8

/-- `LEGACY_EQ(leg, S, vs)`: the uninterpreted collaborator (00_scope.md R8; log 7). -/
def legacyEq (leg : Config.LegacyState) (words : List Word) (vs : Nat) : Config.LegacyState × List Word :=
  (Config.legacyNext leg words vs,
    (List.range words.length).map fun i => (Config.legacySample leg words vs i).signExtend 32)

/-- `eq(S, n, vs)`: the parametric engine when the active profile is valid, else the legacy one (R233). -/
def eqDispatch (s : State) (words : List Word) (vs : Nat) : State × List Word :=
  match s.validActive with
  | some _ => bqProcess s words vs
  | none =>
    match legacyEq s.leg words vs with
    | (leg, out) => ({ s with leg := leg }, out)

/-! ## Fills -/

/-- The source samples of the n oldest frames of the FIFO, unpacked and swapped as `CTRL` says (R231, R232, R236). -/
def sourceWords (s : State) (n : Nat) : List Word :=
  let words := unpack (s.fifo.take (Config.frameBytes * n))
  if s.swapLr then swapFrames words else words

/-- `HELD_L`, `HELD_R` are the last frame of the n processed ones (R234). -/
def State.captureHeld (s : State) (n : Nat) (words : List Word) : State :=
  { s with heldL := words.getD (2 * n - 2) 0, heldR := words.getD (2 * n - 1) 0 }

/-- `read_process(n)` (R236), for 1 <= n <= `HALF_FRAMES`. -/
def readProcess (s : State) (n : Nat) : State × List Word :=
  match eqDispatch { s with fifo := s.fifo.drop (Config.frameBytes * n) } (sourceWords s n) s.volScale with
  | (s', out) => (s'.captureHeld n out, out)

/-- `BUF` with the 2 x `HALF_FRAMES` words of half h replaced (20_memory.md R95). -/
def writeHalf (hf : Nat) (h : Fin 2) (half buf : List Word) : List Word :=
  if h = 0 then half ++ buf.drop (2 * hf) else buf.take (2 * hf) ++ half

/-- The packed words of n held frames. -/
def heldFrames (s : State) (n : Nat) : List Word :=
  (List.replicate n [pack s.params.outPack s.heldL, pack s.params.outPack s.heldR]).flatten

/-- Half h of `BUF` becomes `half`. -/
def State.withHalf (s : State) (h : Fin 2) (half : List Word) : State :=
  { s with buf := writeHalf s.params.halfFrames h half s.buf }

/-- Full fill of half h (R237). -/
def fullFill (s : State) (h : Fin 2) : State :=
  match readProcess s s.params.halfFrames with
  | (s', out) =>
    { s'.withHalf h (out.map (pack s.params.outPack)) with fullCnt := s.fullCnt + 1, lastFill := .full }

/-- Partial fill of half h: n = floor(avail / 6) real frames, the rest the held pair just captured (R238). -/
def partialFill (s : State) (h : Fin 2) : State :=
  let n := s.avail / Config.frameBytes
  match readProcess s n with
  | (s', out) =>
    { s'.withHalf h (out.map (pack s.params.outPack) ++ heldFrames s' (s.params.halfFrames - n)) with
      partCnt := s.partCnt + 1, lastFill := .part }

/-- Hold fill of half h: the held pair throughout, nothing read (R239). -/
def holdFill (s : State) (h : Fin 2) : State :=
  { s.withHalf h (heldFrames s s.params.halfFrames) with holdCnt := s.holdCnt + 1, lastFill := .hold }

/-- The fill that `avail` calls for (R240, R253). -/
def fillHalf (s : State) (h : Fin 2) : State :=
  if s.params.halfBytes ≤ s.avail then fullFill s h
  else if Config.frameBytes ≤ s.avail then partialFill s h
  else holdFill s h

/-- `service(h)`: latch the volume, fill, then clear the flag (R240). -/
def service (s : State) (h : Fin 2) : State := (fillHalf s.latchVolume h).setNf h false

/-- `if NF[h] == 1: service(h)` (R245). -/
def serviceIfFlagged (s : State) (h : Fin 2) : State := if s.nf h then service s h else s

/-! ## Producer commands -/

/-- AO_START (R241). -/
def execAoStart (s : State) : Host.Outcome State Fault Refusal :=
  .next { s.silence.clearBqs with heldL := 0, heldR := 0, pipe := .prebuf, ampEn := false, lastFill := .none }

/-- AO_STOP (R242): the writes in the rule's order; the mute pulse and the halt end within the command. -/
def execAoStop (s : State) : Host.Outcome State Fault Refusal :=
  let muted := { s with outMute := true }
  let halted := { muted with dmaRun := false }
  let restarted := halted.silence.dmaRestart
  .next { restarted with outMute := false, ampEn := false, pipe := .stopped }

/-- One turn of the prebuffer loop: a full fill of half h with the volume latched (R244). -/
def prebufFill (s : State) (h : Fin 2) : State := fullFill s.latchVolume h

/-- The prebuffer loop over halves 0 and 1, left at the first half without a full half's data (R244). -/
def prebufFills (s : State) : State :=
  if s.params.halfBytes ≤ s.avail then
    let first := prebufFill s 0
    if first.params.halfBytes ≤ first.avail then prebufFill first 1 else first
  else s

/-- AO_TASK in PREBUF (R244). -/
def taskPrebuf (s : State) : State :=
  if s.avail < s.params.prebufBytes then s
  else
    let halted := { prebufFills s with dmaRun := false }
    { halted.dmaRestart with ampEn := true, pipe := .streaming }

/-- AO_TASK in STREAMING: half 0, then half 1 (R245). -/
def taskStreaming (s : State) : State := serviceIfFlagged (serviceIfFlagged s 0) 1

/-- AO_TASK (R243). -/
def execAoTask (s : State) : Host.Outcome State Fault Refusal :=
  .next (match s.pipe with
    | .stopped => s
    | .prebuf => taskPrebuf s
    | .streaming => taskStreaming s)

/-! ## The DMA and SRC agents -/

/-- The half the DMA is in (R247). -/
def dmaHalf (s : State) : Fin 2 := if s.dmaPos < s.params.halfFrames then 0 else 1

/-- The DMA begins a half whose flag is still set, while streaming (R249). -/
def startsLate (s : State) : Bool :=
  decide (s.dmaPos = (dmaHalf s).val * s.params.halfFrames) && decide (s.pipe = .streaming) && s.nf (dmaHalf s)

/-- The element of `OUT` that the frame at `DMA_POS` gives (R251). -/
def currentFrame (s : State) : OutFrame :=
  ⟨s.buf.getD (2 * s.dmaPos) 0, s.buf.getD (2 * s.dmaPos + 1) 0, s.ampEn, s.outMute⟩

/-- A DMA step (R247 to R251). There is one whenever `DMA_RUN` is 1, as it always is between commands; a step asked for
without it is none (log 10). A late half is replayed as it is (log 15). -/
def dmaStep (s : State) : State :=
  if s.dmaRun then
    { s with
      late := s.late || startsLate s
      out := s.out ++ [currentFrame s]
      nf0 := s.nf0 || decide (s.dmaPos = s.params.halfFrames - 1)
      nf1 := s.nf1 || decide (s.dmaPos = 2 * s.params.halfFrames - 1)
      dmaPos := (s.dmaPos + 1) % (2 * s.params.halfFrames) }
  else s

/-- A SRC step: the byte is queued, or dropped when the FIFO is full (R250). -/
def srcStep (s : State) (b : Byte) : State :=
  if s.fifo.length < s.params.srcCap then { s with fifo := s.fifo ++ [b] } else s

end Sys2Proof.Machine
end

