-- ==== Sys2Proof/Machine/Crc.lean ====
section
/-! DEFINITION. The CRC32 checker and store validation (42_crc32.md R200 to R207). -/

namespace Sys2Proof.Machine

open Sys2Proof

/-- One bit step of R200. -/
def crcBit (c : Word) : Word := if c.getLsbD 0 then (c >>> 1) ^^^ Config.crcPoly else c >>> 1

/-- n bit steps, and then what follows them: written with the rest of the computation as an argument so that each bit
is decided as it is reached (`crcBits_eq` in Laws/Crc.lean gives the plain form). -/
def crcBits : Nat → Word → (Word → Word) → Word
  | 0, c, next => next c
  | n + 1, c, next => if c.getLsbD 0 then crcBits n ((c >>> 1) ^^^ Config.crcPoly) next else crcBits n (c >>> 1) next

/-- The loop of R200 over the bytes: each is exclusive-ored in, then eight bit steps. -/
def crcBytes : List Byte → Word → Word
  | [], c => c
  | b :: rest, c => crcBits 8 (c ^^^ b.zeroExtend 32) (crcBytes rest)

/-- `crc32(d)` (R200). -/
def crc32 (d : List Byte) : Word := crcBytes d 0xFFFFFFFF ^^^ 0xFFFFFFFF

/-- `crc32( STORE[CRC_LO .. CRC_HI-1] )`: the checksum of the checked region (R202). -/
def regionCrc (p : Config.Params) (m : Memory) : Word := crc32 (m.bytes p.crcLo (p.crcHi - p.crcLo))

/-- `empty_store()` (R204): zeros, magic, version, count 0, and the checksum of the zeroed region. -/
def emptyStore (p : Config.Params) : Memory :=
  (((Memory.mk []).wr32 0 p.storeMagic).wr8 4 p.storeVersion).wr32 8 (regionCrc p (Memory.mk []))

/-- The first check of R203 that the store fails: magic, then version, then CRC. -/
def storeVerdict (p : Config.Params) (m : Memory) : Reason :=
  if m.rd32 0 ≠ p.storeMagic then .magic
  else if m.rd8 4 ≠ p.storeVersion then .version
  else if m.rd32 8 ≠ regionCrc p m then .crc
  else .none

/-- CRC_RUN (R201; operand check R116). -/
def execCrcRun (start len : BitVec 12) (s : State) : Host.Outcome State Fault Refusal :=
  .next (if operandsOk s (.crcRun start len) then
      { s with crcResult := crc32 (s.store.bytes start.toNat len.toNat) }
    else s.reject)

/-- EQ_INIT (R203): a valid store is kept byte for byte, another is replaced by the empty store; `ACTIVE` is NONE and
`BQS` zero either way. -/
def execEqInit (s : State) : Host.Outcome State Fault Refusal :=
  .next { s with
    store := if storeVerdict s.params s.store = .none then s.store else emptyStore s.params
    storeValid := decide (storeVerdict s.params s.store = .none)
    reason := storeVerdict s.params s.store
    active := none
    bqs := zeroBqs }

/-- STORE_SEAL (R205). -/
def execStoreSeal (s : State) : Host.Outcome State Fault Refusal :=
  .next (s.withStore (s.store.wr32 8 (regionCrc s.params s.store)))

end Sys2Proof.Machine
end

