-- ==== Sys2Proof/Machine/Dispatch.lean ====
section
/-! DEFINITION. One arm per command (30_encoding.md R117). -/

namespace Sys2Proof.Machine

open Sys2Proof

def exec (i : Instr) (s : State) : Host.Outcome State Fault Refusal :=
  match i with
  | .nop => Sys2Proof.Machine.execNop s
  | .bqReset => Sys2Proof.Machine.execBqReset s
  | .bqProcess nfr vs => Sys2Proof.Machine.execBqProcess nfr vs s
  | .setActive id => Sys2Proof.Machine.execSetActive id s
  | .clearActive => Sys2Proof.Machine.execClearActive s
  | .profCommit id => Sys2Proof.Machine.execProfCommit id s
  | .profDelete id => Sys2Proof.Machine.execProfDelete id s
  | .aoStart => Sys2Proof.Machine.execAoStart s
  | .aoStop => Sys2Proof.Machine.execAoStop s
  | .aoTask => Sys2Proof.Machine.execAoTask s
  | .volCompute => Sys2Proof.Machine.execVolCompute s
  | .crcRun start len => Sys2Proof.Machine.execCrcRun start len s
  | .eqInit => Sys2Proof.Machine.execEqInit s
  | .storeSeal => Sys2Proof.Machine.execStoreSeal s

end Sys2Proof.Machine
end

