-- ==== Sys2Proof/Machine/Bus.lean ====
section
/-! DEFINITION. The host bus: address decode, register and window accesses, command issue (20_memory.md R80 to R99,
40_command.md R140), hardware reset, and the step of each agent (00_scope.md R4). -/

namespace Sys2Proof.Machine

open Sys2Proof

/-- The registers (10_state.md R33). -/
inductive Reg where
  | cmd
  | status
  | ctrl
  | hostVol
  | localAtt
  | volScale
  | active
  | crcResult
  | fullCnt
  | partCnt
  | holdCnt
  | heldL
  | heldR
  | srcAvail
  | dmaPos
deriving DecidableEq, Repr

/-- The register at word k of the map (R33); words 15 and up are reserved (R84). -/
def registerAt : Nat → Option Reg
  | 0 => some .cmd
  | 1 => some .status
  | 2 => some .ctrl
  | 3 => some .hostVol
  | 4 => some .localAtt
  | 5 => some .volScale
  | 6 => some .active
  | 7 => some .crcResult
  | 8 => some .fullCnt
  | 9 => some .partCnt
  | 10 => some .holdCnt
  | 11 => some .heldL
  | 12 => some .heldR
  | 13 => some .srcAvail
  | 14 => some .dmaPos
  | _ => none

/-- What an access reaches (R81). -/
inductive Target where
  /-- A register. -/
  | register (r : Reg)
  /-- `STORE` from byte i (R85). -/
  | store (i : Nat)
  /-- `BUF[w]` (R86). -/
  | buf (w : Nat)
  /-- `WORK[w]` (R87). -/
  | work (w : Nat)
  /-- Word w of the `BQS` window (R88). -/
  | bqs (w : Nat)
  /-- A reserved register offset (R84) or an unmapped offset (R89): reads 0, ignores writes. -/
  | nothing
  /-- The access raises `BusFault` (60_exceptions.md R311). -/
  | fault
deriving DecidableEq, Repr

/-- A target that takes 32-bit accesses only. -/
def wordOnly (size : AccessSize) (t : Target) : Target := if size = .word then t else .fault

/-- The address decode (R81 to R89): misaligned accesses fault everywhere, narrow ones outside `STORE` and the unmapped
offsets. -/
def target (halfFrames : Nat) (addr : Offset) (size : AccessSize) : Target :=
  let a := addr.toNat
  if a % size.bytes ≠ 0 then .fault
  else if a < 0x1000 then
    wordOnly size (match registerAt (a / 4) with
      | some r => .register r
      | none => .nothing)
  else if a < 0x1000 + Config.storeBytes then .store (a - 0x1000)
  else if a < 0x2000 then .nothing
  else if a < 0x2000 + 16 * halfFrames ∧ a < 0x3000 then wordOnly size (.buf ((a - 0x2000) / 4))
  else if a < 0x3000 then .nothing
  else if a < 0x3000 + 8 * halfFrames ∧ a < 0x4000 then wordOnly size (.work ((a - 0x3000) / 4))
  else if a < 0x4000 then .nothing
  else if a < 0x40A0 then wordOnly size (.bqs ((a - 0x4000) / 4))
  else .nothing

/-! ## Reads -/

/-- `ACTIVE`: the id, or 0xFF for NONE (10_state.md R42). -/
def activeWord : Option (Fin 10) → Word
  | some p => BitVec.ofNat 32 p.val
  | none => 0xFF

/-- `SRC_AVAIL`: the number of bytes in the FIFO (R46). A number that 32 bits cannot hold, possible only where `SRC_CAP` is
2^32 or more, reads as a free value: the spec states none. DESIGN CHOICE, safe (log 17). -/
def State.srcAvail (s : State) : Word :=
  if s.avail < 2 ^ 32 then BitVec.ofNat 32 s.avail else Config.srcAvailBeyond s.avail

/-- The value a read of a register returns (10_state.md R33 to R48). -/
def State.readReg (s : State) : Reg → Word
  | .cmd => 0
  | .status => s.statusWord
  | .ctrl => s.ctrlWord
  | .hostVol => BitVec.ofInt 32 s.hostVol
  | .localAtt => BitVec.ofNat 32 s.localAtt
  | .volScale => BitVec.ofNat 32 s.volScale
  | .active => activeWord s.active
  | .crcResult => s.crcResult
  | .fullCnt => s.fullCnt
  | .partCnt => s.partCnt
  | .holdCnt => s.holdCnt
  | .heldL => s.heldL
  | .heldR => s.heldR
  | .srcAvail => s.srcAvail
  | .dmaPos => BitVec.ofNat 32 s.dmaPos

/-- The accumulator that word w of the `BQS` window shows: 16f + 8c + 4k bytes in, `s1` for k = 0, `s2` for k = 1
(R97). -/
def bqsValue (b : Vector Delay 20) (w : Nat) : F32 :=
  let d := b.toList.getD (w / 2) ⟨F32.zero, F32.zero⟩
  if w % 2 = 0 then d.s1 else d.s2

/-- Word w of the `BQS` window; a NaN shows an open NaN pattern (R97; log 6). -/
def State.bqsWord (s : State) (w : Nat) : Word :=
  F32.toBits (Config.nanPattern s.cascadeFrames w).1 ((Config.nanPattern s.cascadeFrames w).2.val + 1)
    (bqsValue s.bqs w)

/-- A read of `STORE` of the given size, little-endian, zero-extended (R85). -/
def readStore (m : Memory) (i : Nat) : AccessSize → Word
  | .byte => (m.rd8 i).zeroExtend 32
  | .half => (m.rd16 i).zeroExtend 32
  | .word => m.rd32 i

/-- The reply to a read; a read changes no block state (R98). -/
def State.readReply (s : State) (addr : Offset) (size : AccessSize) : Reply :=
  match target s.params.halfFrames addr size with
  | .register r => .data (s.readReg r)
  | .store i => .data (readStore s.store i size)
  | .buf w => .data (s.buf.getD w 0)
  | .work w => .data (s.work.getD w 0)
  | .bqs w => .data (s.bqsWord w)
  | .nothing => .data 0
  | .fault => .busFault addr

/-! ## Writes -/

/-- A write of `STORE` of the given size, little-endian (R85). -/
def writeStore (m : Memory) (i : Nat) (v : Word) : AccessSize → Memory
  | .byte => m.wr8 i (v.extractLsb' 0 8)
  | .half => m.wr16 i (v.extractLsb' 0 16)
  | .word => m.wr32 i v

/-- A command issued by a write of w to `CMD` (40_command.md R140): a word that does not decode is rejected, another is
executed. -/
def issue (w : Word) (s : State) : Host.Outcome State Fault Refusal :=
  match decodeWord w with
  | .ok i => exec i s
  | .error _ => .next s.reject

/-- A 32-bit write to a register (10_state.md R33 to R48); writes to read-only registers are ignored. -/
def writeReg (r : Reg) (w : Word) (s : State) : Host.Outcome State Fault Refusal :=
  match r with
  | .cmd => issue w s
  | .status => .next (s.writeStatus w)
  | .ctrl => .next (s.writeCtrl w)
  | .hostVol => .next (s.writeHostVol w)
  | .localAtt => .next (s.writeLocalAtt w)
  | .volScale => .next s
  | .active => .next s
  | .crcResult => .next s
  | .fullCnt => .next s
  | .partCnt => .next s
  | .holdCnt => .next s
  | .heldL => .next s
  | .heldR => .next s
  | .srcAvail => .next s
  | .dmaPos => .next s

/-- The state with a bus reply recorded (log 5). -/
def State.replied (s : State) (r : Reply) : State := { s with reply := r }

/-- A HOST write (R83 to R89); one that raises `BusFault` has no effect (60_exceptions.md R311). -/
def hostWrite (addr : Offset) (size : AccessSize) (v : Word) (s : State) : Host.Outcome State Fault Refusal :=
  match target s.params.halfFrames addr size with
  | .register r => writeReg r v (s.replied .ack)
  | .store i => .next ((s.replied .ack).withStore (writeStore s.store i v size))
  | .buf _ => .next (s.replied .ack)
  | .work w => .next { s.replied .ack with work := s.work.set w v }
  | .bqs _ => .next (s.replied .ack)
  | .nothing => .next (s.replied .ack)
  | .fault => .next (s.replied (.busFault addr))

/-- One HOST access (R98, R99). -/
def hostAccess (a : HostAccess) (s : State) : Host.Outcome State Fault Refusal :=
  match a with
  | .read addr size => .next (s.replied (s.readReply addr size))
  | .write addr size v => hostWrite addr size v s

/-! ## Reset and the agents -/

/-- Hardware reset (70_reset_and_hazards.md R340): every piece of the block's state takes its reset value but the store,
which reset does not write (R342). It holds any value at power-on (R341, `State.reset`), and then what the commands and
HOST left in it (log 12). Kept also, as no state of the block: the parameters, the agent steps to come and the counters
that index free values (log 12). -/
def hardReset (s : State) : State :=
  { State.resetWith s.params s.store with
    inputs := s.inputs
    drawn := s.drawn
    cascadeFrames := s.cascadeFrames }

/-- One step of the agent the input names (00_scope.md R4). -/
def agentStep (i : Input) (s : State) : Host.Outcome State Fault Refusal :=
  match i with
  | .host a => hostAccess a s
  | .dma => .next (dmaStep s)
  | .src b => .next (srcStep s b)
  | .reset => .next (hardReset s)

/-- The next agent step and the state without it: the head of the list of inputs, or an open one where the list is
empty (log 1). -/
def nextInput (s : State) : Input × State :=
  match s.inputs with
  | i :: rest => (i, { s with inputs := rest })
  | [] => (Config.openInput s.drawn, { s with drawn := s.drawn + 1 })

/-- The HOST access that is the next agent step, if it is one. -/
def State.nextAccess (s : State) : Option HostAccess :=
  match (nextInput s).1 with
  | .host a => some a
  | .dma => none
  | .src _ => none
  | .reset => none

end Sys2Proof.Machine
end

