-- ==== Sys2Proof/Machine/Step.lean ====
section
/-! DEFINITION. One step of the machine: one atomic step of one agent (20_memory.md R99, R100). -/

namespace Sys2Proof.Machine

open Sys2Proof

/-- One atomic step: the next agent step is taken from the list of inputs (log 1) and performed. -/
def step (s : State) : Host.Outcome State Fault Refusal := agentStep (nextInput s).1 (nextInput s).2

/-- `s` with a HOST write of the command word to `CMD` as the next agent step, which is how this block is given an
instruction: it fetches none (10_state.md R31, 40_command.md R140; log 1). -/
def State.withFetchWord (s : State) (nbits w : Nat) : State :=
  { s with inputs := wr32 0x000 (tableWord nbits w) :: s.inputs }

end Sys2Proof.Machine
end

