-- ==== Sys2Proof/Safety.lean ====
section
/-! DEFINITION. The terms in which claims about the block are made: the invariant of every run, what an agent step is,
when a command is rejected (60_exceptions.md R312), the missed-deadline premise (70_reset_and_hazards.md R360), and the
number a binary32 value stands for (00_scope.md R11). -/

namespace Sys2Proof

/-! ## The number a finite binary32 value stands for -/

/-- The value of a finite binary32 as a rational; 0 for an infinity or NaN, which `F32.finite` excludes. -/
def F32.value : F32 → ℚ
  | .nan => 0
  | .inf _ => 0
  | .fin neg e m => (if neg then -1 else 1) * (m : ℚ) * 2 ^ ((e : ℤ) - 149)

/-- Neither an infinity nor a NaN. -/
def F32.finite : F32 → Bool
  | .nan => false
  | .inf _ => false
  | .fin _ _ _ => true

/-- The sign bit: set for a negative value and for -0. A NaN has none in the model (20_memory.md R97). -/
def F32.negative : F32 → Bool
  | .nan => false
  | .inf neg => neg
  | .fin neg _ _ => neg

/-- The last bit of a finite value's significand is 0. -/
def F32.even : F32 → Bool
  | .nan => true
  | .inf _ => true
  | .fin _ _ m => m % 2 == 0

/-- A value that a zero input and a zero state can lead to: a zero of either sign, or NaN. -/
def F32.silent : F32 → Bool
  | .nan => true
  | .inf _ => false
  | .fin _ _ m => m == 0

end Sys2Proof

namespace Sys2Proof.Machine

open Sys2Proof

/-! ## The invariant -/

/-- A sample word in the 24-bit range [-2^23, 2^23 - 1] (10_state.md R45). -/
abbrev inSampleRange (w : Word) : Prop := -8388608 ≤ w.toInt ∧ w.toInt ≤ 8388607

/-- Both accumulators are binary32 values. -/
abbrev Delay.canonical (d : Delay) : Prop := d.s1.canonical = true ∧ d.s2.canonical = true

/-- What holds of every state a run reaches. -/
structure State.Inv (s : State) : Prop where
  /-- The parameters lie in their ranges (00_scope.md R8). -/
  params : s.params.wf
  /-- `STORE` is in canonical form. -/
  store : s.store.wf
  /-- `BUF` has 4 x `HALF_FRAMES` words (R53). -/
  buf : s.buf.length = 4 * s.params.halfFrames
  /-- `WORK` has 2 x `HALF_FRAMES` words (R54). -/
  work : s.work.length = 2 * s.params.halfFrames
  /-- `BQS` holds binary32 values (R51). -/
  bqs : ∀ i : Fin 20, (s.bqs.get i).canonical
  /-- `HOST_VOL` is in range (R39). -/
  hostVol : s.params.volDbMin ≤ s.hostVol ∧ s.hostVol ≤ s.params.volDbMax
  /-- `LOCAL_ATT` is in 0..100 (R40). -/
  localAtt : s.localAtt ≤ 100
  /-- `VOLSCALE` is in 0..256 (R41). -/
  volScale : s.volScale ≤ 256
  /-- `HELD_L` and `HELD_R` are in the 24-bit range (R45). -/
  held : inSampleRange s.heldL ∧ inSampleRange s.heldR
  /-- `DMA_POS` is in 0..2 x `HALF_FRAMES` - 1 (R47). -/
  dmaPos : s.dmaPos < 2 * s.params.halfFrames
  /-- `FIFO` holds at most `SRC_CAP` bytes (R55). -/
  fifo : s.fifo.length ≤ s.params.srcCap
  /-- Between commands the DMA runs (R247). -/
  dmaRun : s.dmaRun = true
  /-- Between commands the output is not muted, and no emitted frame was (R242). -/
  mute : s.outMute = false ∧ ∀ f ∈ s.out, f.mute = false
  /-- The amplifier is engaged exactly while streaming (R241, R242, R244). -/
  amp : s.ampEn = decide (s.pipe = .streaming)

/-! ## Agent steps -/

/-- The next agent step is `i`. -/
abbrev State.next (s : State) (i : Input) : Prop := (nextInput s).1 = i

/-- The next agent step is the HOST's write of command `i` to `CMD`. -/
abbrev State.issues (s : State) (i : Instr) : Prop := s.next (cmd i)

/-- The state an access leaves that changes nothing but the reply on the bus: the input is used up. -/
abbrev State.afterAccess (s : State) (r : Reply) : State := { (nextInput s).2 with reply := r }

/-- R312: the operand and state checks that reject a decoded command. -/
def rejects (s : State) : Instr → Bool
  | .bqProcess nfr vs => decide (s.params.halfFrames < nfr.toNat) || decide (256 < vs.toNat)
  | .crcRun start len => decide (3816 < start.toNat + len.toNat)
  | .setActive id =>
    decide (10 ≤ id.toNat) || s.store.rd8 (16 + 380 * id.toNat) == 0 || s.store.rd8 (16 + 380 * id.toNat + 16) == 0
  | .profCommit id => decide (10 ≤ id.toNat)
  | .profDelete id => decide (10 ≤ id.toNat)
  | .nop => false
  | .bqReset => false
  | .clearActive => false
  | .aoStart => false
  | .aoStop => false
  | .aoTask => false
  | .volCompute => false
  | .eqInit => false
  | .storeSeal => false

/-- The premise R360 asks of a claim about the hardware's output: no half was missed (log 15). -/
abbrev State.onTime (s : State) : Prop := s.late = false

/-! ## Encodings, as the command rules state them -/

/-- A format N command: its one word, and rejection of the opcode with a non-zero `RSV` (R111, R119). -/
def FormatNCommand (op : Nat) (i : Instr) : Prop :=
  decodeWord (BitVec.ofNat 32 op) = .ok i ∧
    ∀ (w : Word) (s : State), w.toNat % 2 ^ 8 = op → w.toNat / 2 ^ 8 ≠ 0 →
      issue w s = .next { s with cmdErr := true }

/-- A format I command: its words, and rejection of the opcode with a non-zero `RSV` (R112, R119). -/
def FormatICommand (op : Nat) (i : BitVec 8 → Instr) : Prop :=
  (∀ id : BitVec 8, decodeWord (BitVec.ofNat 32 (op + id.toNat * 2 ^ 8)) = .ok (i id)) ∧
    ∀ (w : Word) (s : State), w.toNat % 2 ^ 8 = op → w.toNat / 2 ^ 16 ≠ 0 →
      issue w s = .next { s with cmdErr := true }

/-- A format P command: its words, and rejection of the opcode with a non-zero `RSV` (R113, R119). -/
def FormatPCommand (op : Nat) (i : BitVec 12 → BitVec 9 → Instr) : Prop :=
  (∀ (nfr : BitVec 12) (vs : BitVec 9),
      decodeWord (BitVec.ofNat 32 (op + nfr.toNat * 2 ^ 8 + vs.toNat * 2 ^ 20)) = .ok (i nfr vs)) ∧
    ∀ (w : Word) (s : State), w.toNat % 2 ^ 8 = op → w.toNat / 2 ^ 29 ≠ 0 →
      issue w s = .next { s with cmdErr := true }

/-- A format R command: its words; the format has no reserved bits (R114). -/
def FormatRCommand (op : Nat) (i : BitVec 12 → BitVec 12 → Instr) : Prop :=
  ∀ start len : BitVec 12,
    decodeWord (BitVec.ofNat 32 (op + start.toNat * 2 ^ 8 + len.toNat * 2 ^ 20)) = .ok (i start len)

/-- `r` is `exact` rounded to nearest, ties to even, among the finite binary32 values (00_scope.md R11). -/
def NearestEven (exact : ℚ) (r : F32) : Prop :=
  ∀ x : F32, x.canonical = true → x.finite = true →
    |exact - F32.value r| ≤ |exact - F32.value x| ∧
      (|exact - F32.value r| = |exact - F32.value x| → F32.value x ≠ F32.value r → F32.even r = true)

/-- `r` is `exact` rounded once (00_scope.md R11): to nearest even below the midpoint between the largest finite value
and 2^128, and to an infinity from there on; the sign of a non-zero number is kept. Overflow and the signs are the
standard's: log 8. -/
structure RoundsTo (exact : ℚ) (r : F32) : Prop where
  /-- In range the result is finite and the nearest. -/
  nearest : |exact| < 2 ^ 128 - 2 ^ 103 → r.finite = true ∧ NearestEven exact r
  /-- Out of range it is an infinity. -/
  overflow : 2 ^ 128 - 2 ^ 103 ≤ |exact| → r = .inf r.negative
  /-- The sign, where there is one. -/
  sign : exact ≠ 0 → r.negative = decide (exact < 0)

/-! ## Terms of the cascade and the fills -/

/-- The words of `l` on channel c: every second one, from word c on (41_biquad.md R160). -/
def channelWords : Nat → List Word → List Word
  | _, [] => []
  | 0, v :: rest => v :: channelWords 1 rest
  | _ + 1, _ :: rest => channelWords 0 rest

/-- Two states run the same cascade on channel c: same store, selection, gain and `BQS[*][c]`. -/
def sameChannel (c : Fin 2) (s t : State) : Prop :=
  s.store = t.store ∧ s.active = t.active ∧ s.params = t.params ∧
    ∀ k : Fin 10, getDelay s.bqs k c = getDelay t.bqs k c

/-- The words of half h of `BUF` (20_memory.md R95). -/
def State.halfWords (s : State) (h : Fin 2) : List Word :=
  (s.buf.drop (2 * h.val * s.params.halfFrames)).take (2 * s.params.halfFrames)

end Sys2Proof.Machine
end

