-- ==== Sys2Proof/Certificates/Slice0/Obligations.lean ====
section
/-! DEFINITION. The statements about the block, one `def Obligations.<Name> : Prop` each; each docstring says which rule
of spec/ it formalises. Hypotheses are on the state and the operands alone. -/

open Sys2Proof Sys2Proof.Machine

/-! ## Encoding -/

/-- Decoding the encoding of an instruction gives it back with every operand, as a word and as bytes in bus order, and
the bytes after it are left; a word that decodes is the encoding of what it decodes to, so each command word has one
meaning (30_encoding.md R110 to R117, R120). -/
def Obligations.DecodeEncodeAgree : Prop :=
  (∀ (i : Instr) (rest : List Byte),
    decodeWord (encode i) = .ok i ∧ decodeBytes (bytesOfWord (encode i) ++ rest) = .ok (i, rest)) ∧
  ∀ (w : Word) (i : Instr), decodeWord w = .ok i → encode i = w

/-- Words written out from the encodings of 30_encoding.md R111 to R117 and R121 decode to what they stand for; one of
each format and family. -/
def Obligations.ReferenceWordsDecode : Prop :=
  decodeTableWord 32 0x10000202 = some (.bqProcess 2 256) ∧
    decodeTableWord 32 0xED801030 = some (.crcRun 16 3800) ∧
    decodeTableWord 32 0x00000303 = some (.setActive 3) ∧
    decodeTableWord 32 0x00000306 = some (.profDelete 3) ∧
    decodeTableWord 32 0x00000012 = some .aoTask ∧
    decodeTableWord 32 0x00000020 = some .volCompute ∧
    decodeTableWord 32 0x00000032 = some .storeSeal ∧
    decodeTableWord 32 0x00000000 = some .nop

/-- A reserved opcode is rejected: `CMDERR` and no other effect (30_encoding.md R118). -/
def Obligations.ReservedOpcodeRejected : Prop :=
  ∀ (w : Word) (s : State),
    let op := w.toNat % 2 ^ 8
    (0x07 ≤ op ∧ op ≤ 0x0F) ∨ (0x13 ≤ op ∧ op ≤ 0x1F) ∨ (0x21 ≤ op ∧ op ≤ 0x2F) ∨ (0x33 ≤ op ∧ op ≤ 0xFF) →
      issue w s = .next { s with cmdErr := true }

/-! ## Steps -/

/-- A HOST access that comes next is what the step performs, once the input is used up (00_scope.md R4, 20_memory.md R98,
R99). A HOST write to `CMD` (40_command.md R140): a word that does not decode is rejected; a command whose operands fail
R116 is rejected; any other runs as `exec` says; a narrower write issues nothing and raises `BusFault`. The input is
used up and the bus replies (the model's own fields, log 1 and 5). The word placed by `withFetchWord` is the next thing
the machine runs. -/
def Obligations.StepRunsIssuedCommand : Prop :=
  (∀ (s : State) (a : HostAccess) (rest : List Input), s.inputs = .host a :: rest →
    step s = hostAccess a { s with inputs := rest }) ∧
  (∀ (s : State) (w : Word) (size : AccessSize) (rest : List Input), s.inputs = .host (.write 0 size w) :: rest →
    (size = .word → ∀ i, decodeWord w = .ok i →
      step s = exec i { s with inputs := rest, reply := .ack } ∧
        (i.operandsLegal s.params.halfFrames = false →
          step s = .next { s with inputs := rest, reply := .ack, cmdErr := true })) ∧
    (size = .word → ∀ e, decodeWord w = .error e →
      step s = .next { s with inputs := rest, reply := .ack, cmdErr := true }) ∧
    (size ≠ .word → step s = .next { s with inputs := rest, reply := .busFault 0 })) ∧
  ∀ (s : State) (w : Nat) (i : Instr), decodeTableWord 32 w = some i →
    step (s.withFetchWord 32 w) = exec i { s with reply := .ack }

/-- Every step, from every state with the invariant, keeps the invariant: parameters in range, `STORE` canonical,
buffers of their size, `BQS` of binary32 values, registers in the ranges of 10_state.md R39 to R47, the DMA running and
unmuted between commands, no emitted frame muted, the amplifier on exactly while streaming. -/
def Obligations.InvariantKeptByStep : Prop :=
  ∀ s t : State, s.Inv → step s = .next t → t.Inv

/-- The invariant holds after reset, whatever the open parameters and the power-on store. -/
def Obligations.InvariantAtReset : Prop :=
  State.reset.Inv

/-- What every register and window reads after a hardware reset (10_state.md R33, 70_reset_and_hazards.md R340): at
power-on, and after any step that takes the reset input. Such a step always completes, and it does not write `STORE`
(R342), which at power-on is any canonical image (R341; log 4); the parameters are those of the block. -/
def Obligations.ReadsAfterReset : Prop :=
  (∀ s : State, s.next .reset → ∃ t, step s = .next t ∧ t.store = s.store ∧ t.params = s.params) ∧
  State.reset.store.wf ∧
  ∀ t : State, (t = State.reset ∨ ∃ s : State, s.next .reset ∧ step s = .next t) →
    (t.readReply 0x000 .word = .data 0 ∧ t.readReply 0x004 .word = .data 0x10 ∧
      t.readReply 0x018 .word = .data 0xFF) ∧
    (∀ k : Nat, (k = 2 ∨ k = 3 ∨ k = 4 ∨ k = 5 ∨ (7 ≤ k ∧ k ≤ 14)) →
      t.readReply (BitVec.ofNat 15 (4 * k)) .word = .data 0) ∧
    (∀ w, w < 4 * t.params.halfFrames → t.buf.getD w 1 = 0) ∧
    (∀ w, w < 2 * t.params.halfFrames → t.work.getD w 1 = 0) ∧
    (∀ w, w < 40 → t.bqsWord w = 0) ∧
    t.ampEn = false ∧ t.outMute = false ∧ t.irq = false ∧ t.out = [] ∧ t.leg = Config.legacyInit

/-! ## Whole-machine rules -/

/-- `STATE` changes exactly as 43_audio_output.md R230 says: AO_START to PREBUF from any state, AO_TASK in PREBUF with
enough data to STREAMING, AO_STOP and hardware reset to STOPPED; no other step changes it. -/
def Obligations.PipelineStateMachine : Prop :=
  (∀ s t : State, step s = .next t → t.pipe ≠ s.pipe →
    (s.issues .aoStart ∧ t.pipe = .prebuf) ∨
    (s.issues .aoTask ∧ s.pipe = .prebuf ∧ s.params.prebufBytes ≤ s.avail ∧ t.pipe = .streaming) ∨
    (s.issues .aoStop ∧ t.pipe = .stopped) ∨
    (s.next .reset ∧ t.pipe = .stopped)) ∧
  (∀ s t : State, step s = .next t →
    (s.issues .aoStart → t.pipe = .prebuf) ∧
    (s.issues .aoTask → s.pipe = .prebuf → s.params.prebufBytes ≤ s.avail → t.pipe = .streaming) ∧
    (s.issues .aoStop → t.pipe = .stopped) ∧
    (s.next .reset → t.pipe = .stopped))

/-- The writers of the needs-fill flags: only the DMA sets one; only AO_TASK, AO_STOP and hardware reset clear one
(10_state.md R49, 20_memory.md R102). -/
def Obligations.NeedsFillWriters : Prop :=
  ∀ (s t : State) (h : Fin 2), step s = .next t →
    (s.nf h = false → t.nf h = true → s.next .dma) ∧
    (s.nf h = true → t.nf h = false → s.issues .aoTask ∨ s.issues .aoStop ∨ s.next .reset)

/-- Every step answers a next state (40_command.md R144, 60_exceptions.md R310, 93_implementation_defined.md X23: no
command, access or agent step hangs). For an access that raises `BusFault` this is the model's choice: log 5 (DESIGN
CHOICE) makes `BusFault` the bus's reply, after which "the next HOST access proceeds normally" (R310), where X14 speaks
of a distinct fault outcome. Which decoded commands are rejected (60_exceptions.md R312), and that any other leaves
`CMDERR` alone; either way the command completes (40_command.md R142). -/
def Obligations.EveryStepCompletesAndRejectionTable : Prop :=
  (∀ s : State, ∃ t, step s = .next t) ∧
  ∀ (i : Instr) (s : State),
    (rejects s i = true → exec i s = .next { s with cmdErr := true }) ∧
    (rejects s i = false → ∃ t, exec i s = .next t ∧ t.cmdErr = s.cmdErr)

/-- `CMDERR` is set only by a rejected command, which changes nothing else (40_command.md R142, 60_exceptions.md
R312). -/
def Obligations.CmdErrSetOnlyByRejection : Prop :=
  ∀ s t : State, step s = .next t → s.cmdErr = false → t.cmdErr = true →
    ∃ w : Word, s.next (.host (.write 0 .word w)) ∧
      ((∃ e, decodeWord w = .error e) ∨ ∃ i, decodeWord w = .ok i ∧ rejects s i = true) ∧
      t = { s.afterAccess .ack with cmdErr := true }

/-- `LATE` is set exactly by a DMA step that begins a half whose flag is still set while streaming (43_audio_output.md
R249, 60_exceptions.md R313). -/
def Obligations.LateSetExactlyByDma : Prop :=
  ∀ s t : State, s.Inv → step s = .next t → s.late = false →
    (t.late = true ↔
      s.next .dma ∧ s.pipe = .streaming ∧
        ∃ h : Fin 2, s.dmaPos = h.val * s.params.halfFrames ∧ s.nf h = true)

/-- A HOST write to `STATUS` clears `CMDERR` on bit 10 and `LATE` on bit 11 and does nothing else (10_state.md R38);
nothing but such a write of 1, or hardware reset, clears either (40_command.md R142, 43_audio_output.md R249). -/
def Obligations.StickyBitsClearedOnlyByHost : Prop :=
  (∀ (s : State) (w : Word),
    hostAccess (.write 0x004 .word w) s =
      .next { s with
        reply := .ack
        cmdErr := if w.getLsbD 10 then false else s.cmdErr
        late := if w.getLsbD 11 then false else s.late }) ∧
  ∀ s t : State, step s = .next t →
    (s.cmdErr = true → t.cmdErr = false →
      s.next .reset ∨ ∃ w : Word, s.next (.host (.write 4 .word w)) ∧ w.getLsbD 10 = true) ∧
    (s.late = true → t.late = false →
      s.next .reset ∨ ∃ w : Word, s.next (.host (.write 4 .word w)) ∧ w.getLsbD 11 = true)

/-- `CTRL`, `HOST_VOL` and `LOCAL_ATT` change only by HOST writes to them and by hardware reset (10_state.md R36). -/
def Obligations.ControlChangesOnlyByHost : Prop :=
  ∀ s t : State, step s = .next t →
    ((t.swapLr, t.pwrTier, t.hostMute, t.localMute, t.irqEn) ≠
        (s.swapLr, s.pwrTier, s.hostMute, s.localMute, s.irqEn) →
      s.next .reset ∨ ∃ w : Word, s.next (.host (.write 0x008 .word w))) ∧
    (t.hostVol ≠ s.hostVol → s.next .reset ∨ ∃ w : Word, s.next (.host (.write 0x00C .word w))) ∧
    (t.localAtt ≠ s.localAtt → s.next .reset ∨ ∃ w : Word, s.next (.host (.write 0x010 .word w)))

/-- `STORE` changes only by HOST writes to its window and by PROF_COMMIT, PROF_DELETE, EQ_INIT and STORE_SEAL, not by
hardware reset (70_reset_and_hazards.md R342); `BUF` only by AO_START, AO_STOP and AO_TASK, and at reset; the fill
counters only by AO_TASK, and are cleared only by reset (10_state.md R44, R52, R53; 60_exceptions.md R321). -/
def Obligations.StoreBufAndCounterWriters : Prop :=
  ∀ s t : State, step s = .next t →
    (t.store ≠ s.store →
      s.issues .eqInit ∨ s.issues .storeSeal ∨
        (∃ id, s.issues (.profCommit id)) ∨ (∃ id, s.issues (.profDelete id)) ∨
        ∃ (addr : Offset) (size : AccessSize) (v : Word), s.next (.host (.write addr size v)) ∧
          0x1000 ≤ addr.toNat ∧ addr.toNat + size.bytes ≤ 0x1000 + 3816) ∧
    (t.buf ≠ s.buf → s.next .reset ∨ s.issues .aoStart ∨ s.issues .aoStop ∨ s.issues .aoTask) ∧
    ((t.fullCnt, t.partCnt, t.holdCnt) ≠ (s.fullCnt, s.partCnt, s.holdCnt) →
      s.issues .aoTask ∨ (s.next .reset ∧ t.fullCnt = 0 ∧ t.partCnt = 0 ∧ t.holdCnt = 0))

/-- The trace `OUT` grows by exactly one frame per DMA step and changes by nothing else but hardware reset, which
empties it (43_audio_output.md R251, 10_state.md R57). -/
def Obligations.TraceGrowsOnlyByDma : Prop :=
  ∀ s t : State, s.Inv → step s = .next t →
    (s.next .dma → t.out = s.out ++
      [⟨s.buf.getD (2 * s.dmaPos) 0, s.buf.getD (2 * s.dmaPos + 1) 0, s.ampEn, s.outMute⟩]) ∧
    (s.next .reset → t.out = []) ∧
    (¬ s.next .dma → ¬ s.next .reset → t.out = s.out)

/-! ## The host bus -/

/-- A read changes nothing but the reply, and the same read again gets the same reply (20_memory.md R98). -/
def Obligations.ReadsHaveNoSideEffect : Prop :=
  ∀ (s : State) (addr : Offset) (size : AccessSize), ∃ r : Reply,
    ∀ (r0 : Reply) (rest : List Input),
      step { s with inputs := .host (.read addr size) :: rest, reply := r0 } =
        .next { s with inputs := rest, reply := r }

/-- `BusFault(addr)` is raised by exactly the misaligned accesses and the narrow accesses to registers, `BUF`, `WORK`
and `BQS`, and such an access has no effect (60_exceptions.md R311). -/
def Obligations.BusFaultExactly : Prop :=
  ∀ (s : State) (addr : Offset) (size : AccessSize), s.params.wf →
    let a := addr.toNat
    let n := size.bytes
    let narrow := n < 4 ∧ (a < 0x1000 ∨ (0x2000 ≤ a ∧ a < 0x2000 + 16 * s.params.halfFrames) ∨
      (0x3000 ≤ a ∧ a < 0x3000 + 8 * s.params.halfFrames) ∨ (0x4000 ≤ a ∧ a < 0x40A0))
    ((a % n ≠ 0 ∨ narrow) →
      hostAccess (.read addr size) s = .next { s with reply := .busFault addr } ∧
        ∀ v, hostAccess (.write addr size v) s = .next { s with reply := .busFault addr }) ∧
    (¬ (a % n ≠ 0 ∨ narrow) →
      (∃ d, hostAccess (.read addr size) s = .next { s with reply := .data d }) ∧
        ∀ v, ∃ t, hostAccess (.write addr size v) s = .next t ∧ t.reply = .ack)

/-- Reserved register offsets (20_memory.md R84) and unmapped offsets (R89): aligned accesses read 0 and write nothing,
misaligned ones raise `BusFault`. -/
def Obligations.ReservedAndUnmappedOffsets : Prop :=
  ∀ (s : State) (addr : Offset) (size : AccessSize), s.params.wf →
    let a := addr.toNat
    ((0x3C ≤ a ∧ a < 0x1000 ∧ size = .word) ∨ (0x1EE8 ≤ a ∧ a < 0x2000) ∨
        (0x2000 + 16 * s.params.halfFrames ≤ a ∧ a < 0x3000) ∨
        (0x3000 + 8 * s.params.halfFrames ≤ a ∧ a < 0x4000) ∨ 0x40A0 ≤ a) →
      (a % size.bytes = 0 →
        hostAccess (.read addr size) s = .next { s with reply := .data 0 } ∧
          ∀ v, hostAccess (.write addr size v) s = .next { s with reply := .ack }) ∧
      (a % size.bytes ≠ 0 →
        hostAccess (.read addr size) s = .next { s with reply := .busFault addr } ∧
          ∀ v, hostAccess (.write addr size v) s = .next { s with reply := .busFault addr })

/-- The `STORE` window (20_memory.md R85, R82): an aligned read returns the bytes little-endian, an aligned write stores
them and changes no other byte and nothing else, a misaligned access raises `BusFault`. -/
def Obligations.StoreWindowAccess : Prop :=
  ∀ (s : State) (addr : Offset) (size : AccessSize) (v : Word), s.store.wf →
    let a := addr.toNat
    let i := a - 0x1000
    0x1000 ≤ a → a < 0x1000 + 3816 →
      (a % size.bytes = 0 →
        (∃ d : Word, hostAccess (.read addr size) s = .next { s with reply := .data d } ∧
          ∀ k < 4, d.extractLsb' (8 * k) 8 = if k < size.bytes then s.store.rd8 (i + k) else 0) ∧
        ∃ m : Memory, hostAccess (.write addr size v) s = .next { s with store := m, reply := .ack } ∧
          ∀ j, m.rd8 j = if i ≤ j ∧ j < i + size.bytes then v.extractLsb' (8 * (j - i)) 8 else s.store.rd8 j) ∧
      (a % size.bytes ≠ 0 →
        hostAccess (.read addr size) s = .next { s with reply := .busFault addr } ∧
          hostAccess (.write addr size v) s = .next { s with reply := .busFault addr })

/-- The `BUF` and `WORK` windows (20_memory.md R86, R87): word reads return the word, a word write to `BUF` is ignored
and one to `WORK` sets that word and nothing else, a narrow access raises `BusFault`. -/
def Obligations.BufAndWorkWindows : Prop :=
  ∀ (s : State) (w : Nat) (v : Word), s.Inv →
    (w < 4 * s.params.halfFrames →
      let addr : Offset := BitVec.ofNat 15 (0x2000 + 4 * w)
      hostAccess (.read addr .word) s = .next { s with reply := .data (s.buf.getD w 0) } ∧
        hostAccess (.write addr .word v) s = .next { s with reply := .ack }) ∧
    (w < 2 * s.params.halfFrames →
      let addr : Offset := BitVec.ofNat 15 (0x3000 + 4 * w)
      hostAccess (.read addr .word) s = .next { s with reply := .data (s.work.getD w 0) } ∧
        ∃ l : List Word, hostAccess (.write addr .word v) s = .next { s with work := l, reply := .ack } ∧
          l.length = s.work.length ∧ ∀ j, j < l.length → l.getD j 0 = if j = w then v else s.work.getD j 0) ∧
    (∀ (addr : Offset) (size : AccessSize), size ≠ .word →
      ((0x2000 ≤ addr.toNat ∧ addr.toNat < 0x2000 + 16 * s.params.halfFrames) ∨
        (0x3000 ≤ addr.toNat ∧ addr.toNat < 0x3000 + 8 * s.params.halfFrames)) →
      hostAccess (.read addr size) s = .next { s with reply := .busFault addr } ∧
        hostAccess (.write addr size v) s = .next { s with reply := .busFault addr })

/-- The `BQS` window (20_memory.md R88, R97): word 16f + 8c + 4k shows `s1` (k = 0) or `s2` (k = 1) of `BQS[f][c]`; a NaN
shows some pattern with exponent all ones and a non-zero fraction (log 6). A 32-bit write to it changes nothing, and a
narrower access raises `BusFault` and changes nothing (the reply: log 5). -/
def Obligations.BqsWindowShowsState : Prop :=
  (∀ (s : State) (f : Fin 10) (c k : Fin 2), s.Inv →
    let addr : Offset := BitVec.ofNat 15 (0x4000 + 16 * f.val + 8 * c.val + 4 * k.val)
    let x := if k = 0 then (getDelay s.bqs f c).s1 else (getDelay s.bqs f c).s2
    (∃ d : Word, hostAccess (.read addr .word) s = .next { s with reply := .data d } ∧
      F32.ofBits d = x ∧
      (x = .nan → d.toNat / 2 ^ 23 % 2 ^ 8 = 255 ∧ d.toNat % 2 ^ 23 ≠ 0)) ∧
    ∀ v : Word, hostAccess (.write addr .word v) s = .next { s with reply := .ack }) ∧
  ∀ (s : State) (addr : Offset) (size : AccessSize) (v : Word), s.Inv → size ≠ .word →
    0x4000 ≤ addr.toNat → addr.toNat < 0x40A0 →
    hostAccess (.read addr size) s = .next { s with reply := .busFault addr } ∧
      hostAccess (.write addr size v) s = .next { s with reply := .busFault addr }

/-- The bits of `STATUS` and the codes of its fields (10_state.md R37). -/
def Obligations.StatusWordLayout : Prop :=
  ∀ s : State,
    let w := s.statusWord
    w.toNat % 2 ^ 2 = (match s.pipe with | .stopped => 0 | .prebuf => 1 | .streaming => 2) ∧
      w.getLsbD 2 = s.nf0 ∧ w.getLsbD 3 = s.nf1 ∧ w.getLsbD 4 = s.dmaRun ∧ w.getLsbD 5 = s.ampEn ∧
      w.getLsbD 6 = s.outMute ∧ w.getLsbD 7 = s.storeValid ∧
      w.toNat / 2 ^ 8 % 2 ^ 2 = (match s.reason with | .none => 0 | .magic => 1 | .version => 2 | .crc => 3) ∧
      w.getLsbD 10 = s.cmdErr ∧ w.getLsbD 11 = s.late ∧
      w.toNat / 2 ^ 12 % 2 ^ 2 = (match s.lastFill with | .none => 0 | .full => 1 | .part => 2 | .hold => 3) ∧
      w.getLsbD 14 = s.irq ∧ w.toNat < 2 ^ 15

/-- A write to `CTRL` (10_state.md R35): the fields it sets, that tier 3 stores 0, what reads back, and that nothing
else changes, `VOLSCALE` included. -/
def Obligations.ControlWriteLegalised : Prop :=
  ∀ (s : State) (w : Word), ∃ t : Fin 3,
    hostAccess (.write 0x008 .word w) s =
      .next { s with
        reply := .ack
        swapLr := w.getLsbD 0
        pwrTier := t
        hostMute := w.getLsbD 3
        localMute := w.getLsbD 4
        irqEn := w.getLsbD 5 } ∧
    t.val = (if w.toNat / 2 % 4 = 3 then 0 else w.toNat / 2 % 4) ∧
    (s.writeCtrl w).readReply 0x008 .word =
      .data (if w.toNat / 2 % 4 = 3 then w &&& 0x39 else w &&& 0x3F)

/-- Writes to `HOST_VOL` (10_state.md R39) and `LOCAL_ATT` (R40): the low bits, clamped; what reads back; nothing else
changes. -/
def Obligations.VolumeWritesClamped : Prop :=
  ∀ (s : State) (w : Word), s.params.wf →
    (∃ v : Int, hostAccess (.write 0x00C .word w) s = .next { s with reply := .ack, hostVol := v } ∧
      (let x : Int := if w.toNat % 2 ^ 16 < 2 ^ 15 then w.toNat % 2 ^ 16 else w.toNat % 2 ^ 16 - 2 ^ 16
       v = if x < s.params.volDbMin then s.params.volDbMin
         else if s.params.volDbMax < x then s.params.volDbMax else x) ∧
      ∃ d, ({ s with hostVol := v } : State).readReply 0x00C .word = .data d ∧ d.toInt = v) ∧
    (∃ a : Nat, hostAccess (.write 0x010 .word w) s = .next { s with reply := .ack, localAtt := a } ∧
      a = (if w.toNat % 2 ^ 8 ≤ 100 then w.toNat % 2 ^ 8 else 100) ∧
      ∃ d, ({ s with localAtt := a } : State).readReply 0x010 .word = .data d ∧ d.toNat = a)

/-- What each register reads (10_state.md R33, R34, R39 to R48), and that writes to the read-only registers 0x014 to
0x038 are ignored (R33). `STATUS` is `StatusWordLayout`. `SRC_AVAIL` for a FIFO of 2^32 bytes or more is a free value
(log 17). -/
def Obligations.RegisterReadsAndReadOnlyWrites : Prop :=
  ∀ s : State,
    (∀ (k : Nat) (d : Word),
      (k, d) ∈ [(0, 0), (1, s.statusWord), (3, BitVec.ofInt 32 s.hostVol), (4, BitVec.ofNat 32 s.localAtt),
        (5, BitVec.ofNat 32 s.volScale),
        (6, match s.active with | some p => BitVec.ofNat 32 p.val | none => 0xFF),
        (7, s.crcResult), (8, s.fullCnt), (9, s.partCnt), (10, s.holdCnt), (11, s.heldL), (12, s.heldR),
        (14, BitVec.ofNat 32 s.dmaPos)] →
      hostAccess (.read (BitVec.ofNat 15 (4 * k)) .word) s = .next { s with reply := .data d }) ∧
    (∃ d : Word, hostAccess (.read 0x034 .word) s = .next { s with reply := .data d } ∧
      (s.fifo.length < 2 ^ 32 → d.toNat = s.fifo.length)) ∧
    (∃ d : Word, hostAccess (.read 0x008 .word) s = .next { s with reply := .data d } ∧
      d.getLsbD 0 = s.swapLr ∧ d.toNat / 2 % 4 = s.pwrTier.val ∧ d.getLsbD 3 = s.hostMute ∧
      d.getLsbD 4 = s.localMute ∧ d.getLsbD 5 = s.irqEn ∧ d.toNat < 2 ^ 6) ∧
    ∀ (w : Word) (k : Nat), 5 ≤ k → k ≤ 14 →
      hostAccess (.write (BitVec.ofNat 15 (4 * k)) .word w) s = .next { s with reply := .ack }

/-! ## Commands -/

/-- NOP (40_command.md R143): nothing changes; its one word; rejected with non-zero reserved bits. -/
def Obligations.NopChangesNothing : Prop :=
  FormatNCommand 0x00 .nop ∧ ∀ s : State, exec .nop s = .next s

/-- BQ_RESET (41_biquad.md R161): every word of the `BQS` window reads 0, nothing else changes, and a second one changes
nothing. -/
def Obligations.BqResetZeroesFilterState : Prop :=
  FormatNCommand 0x01 .bqReset ∧
    ∀ s : State, ∃ b : Vector Delay 20,
      exec .bqReset s = .next { s with bqs := b } ∧
      (∀ w, w < 40 → ({ s with bqs := b } : State).bqsWord w = 0) ∧
      exec .bqReset { s with bqs := b } = .next { s with bqs := b }

/-- SET_ACTIVE (41_biquad.md R163): selects a slot below 10 whose name and count are not 0; otherwise rejected, the
selection kept; `BQS` is not reset. -/
def Obligations.SetActiveSelectsNonEmptySlot : Prop :=
  FormatICommand 0x03 .setActive ∧
    ∀ (s : State) (id : BitVec 8),
      (∀ p : Fin 10, id.toNat = p.val →
        (s.store.rd8 (16 + 380 * p.val) ≠ 0 ∧ s.store.rd8 (16 + 380 * p.val + 16) ≠ 0 →
          exec (.setActive id) s = .next { s with active := some p }) ∧
        (s.store.rd8 (16 + 380 * p.val) = 0 ∨ s.store.rd8 (16 + 380 * p.val + 16) = 0 →
          exec (.setActive id) s = .next { s with cmdErr := true })) ∧
      (10 ≤ id.toNat → exec (.setActive id) s = .next { s with cmdErr := true })

/-- CLEAR_ACTIVE (41_biquad.md R164): selects NONE, which `ACTIVE` reads as 0xFF, and nothing else; the next fill runs
the legacy EQ. -/
def Obligations.ClearActiveSelectsNone : Prop :=
  FormatNCommand 0x04 .clearActive ∧
    ∀ s : State, exec .clearActive s = .next { s with active := none } ∧
      ({ s with active := none } : State).readReply 0x018 .word = .data 0xFF ∧
      ∀ (words : List Word) (vs : Nat),
        eqDispatch { s with active := none } words vs =
          ({ s with active := none, leg := (legacyEq s.leg words vs).1 }, (legacyEq s.leg words vs).2)

/-- PROF_COMMIT (41_biquad.md R165, R167): byte by byte, the name is terminated, the count clamped to 10, and
`profile_count` is the number of non-empty slots; no other byte and nothing else changes; an id of 10 or more is
rejected. -/
def Obligations.ProfCommitTerminatesAndRecounts : Prop :=
  FormatICommand 0x05 .profCommit ∧
    ∀ (s : State) (id : BitVec 8), s.store.wf →
      (∀ p : Fin 10, id.toNat = p.val → ∃ m : Memory,
        exec (.profCommit id) s = .next { s with store := m } ∧ m.wf ∧
        ∀ j, m.rd8 j =
          if j = 16 + 380 * p.val + 15 then 0
          else if j = 16 + 380 * p.val + 16 then
            (if (s.store.rd8 j).toNat ≤ 10 then s.store.rd8 j else 10)
          else if j = 5 then
            BitVec.ofNat 8 ((List.finRange 10).countP fun q =>
              decide (m.rd8 (16 + 380 * q.val) ≠ 0 ∧ m.rd8 (16 + 380 * q.val + 16) ≠ 0))
          else s.store.rd8 j) ∧
      (10 ≤ id.toNat → exec (.profCommit id) s = .next { s with cmdErr := true })

/-- PROF_DELETE (41_biquad.md R166, R167): the slot's 380 bytes are 0, `profile_count` is recounted, a selection of the
slot becomes NONE; no other byte and nothing else changes; an id of 10 or more is rejected. -/
def Obligations.ProfDeleteZeroesSlot : Prop :=
  FormatICommand 0x06 .profDelete ∧
    ∀ (s : State) (id : BitVec 8), s.store.wf →
      (∀ p : Fin 10, id.toNat = p.val → ∃ m : Memory,
        exec (.profDelete id) s =
          .next { s with store := m, active := if s.active = some p then none else s.active } ∧ m.wf ∧
        ∀ j, m.rd8 j =
          if 16 + 380 * p.val ≤ j ∧ j < 16 + 380 * p.val + 380 then 0
          else if j = 5 then
            BitVec.ofNat 8 ((List.finRange 10).countP fun q =>
              decide (m.rd8 (16 + 380 * q.val) ≠ 0 ∧ m.rd8 (16 + 380 * q.val + 16) ≠ 0))
          else s.store.rd8 j) ∧
      (10 ≤ id.toNat → exec (.profDelete id) s = .next { s with cmdErr := true })

/-- SET_ACTIVE, CLEAR_ACTIVE, PROF_COMMIT and PROF_DELETE leave `BQS` alone, and so does every other command but
BQ_PROCESS and AO_TASK, which run the cascade, and BQ_RESET, EQ_INIT and AO_START, which zero it (41_biquad.md R169). -/
def Obligations.OnlyResetsZeroFilterState : Prop :=
  (∀ (i : Instr) (s : State),
    ((∃ id, i = .setActive id) ∨ i = .clearActive ∨ (∃ id, i = .profCommit id) ∨ (∃ id, i = .profDelete id) ∨
      i = .nop ∨ i = .aoStop ∨ i = .volCompute ∨ (∃ start len, i = .crcRun start len) ∨ i = .storeSeal) →
      ∃ t, exec i s = .next t ∧ t.bqs = s.bqs) ∧
  (∀ (i : Instr) (s : State), (i = .bqReset ∨ i = .eqInit ∨ i = .aoStart) →
    ∃ t, exec i s = .next t ∧ ∀ (k : Fin 10) (c : Fin 2), getDelay t.bqs k c = ⟨F32.zero, F32.zero⟩)

/-- CRC_RUN (42_crc32.md R201): `CRC_RESULT` is the CRC32 of the region and nothing else changes; an empty region gives
0; a region past the store is rejected. `crc32`, here and in the statements about EQ_INIT and STORE_SEAL, is the loop of
R200: initial value, polynomial, eight bit steps a byte with the least significant bit first, final complement; its check
value is 0xCBF43926. R200 marks the initial value, the complement and the check value as its own ("from general knowledge,
not in source"). -/
def Obligations.CrcRunComputesRegionCrc : Prop :=
  FormatRCommand 0x30 .crcRun ∧
    (let bitStep : Word → Word := fun c => if c.getLsbD 0 = true then (c >>> 1) ^^^ 0xEDB88320 else c >>> 1
     ∀ d : List Byte,
      crc32 d = d.foldl (fun c b => Nat.iterate bitStep 8 (c ^^^ b.zeroExtend 32)) 0xFFFFFFFF ^^^ 0xFFFFFFFF) ∧
    crc32 [0x31, 0x32, 0x33, 0x34, 0x35, 0x36, 0x37, 0x38, 0x39] = 0xCBF43926 ∧
    ∀ (s : State) (start len : BitVec 12),
      (start.toNat + len.toNat ≤ 3816 →
        exec (.crcRun start len) s = .next { s with
          crcResult := crc32 ((List.range len.toNat).map fun k => s.store.rd8 (start.toNat + k)) } ∧
        (len = 0 → exec (.crcRun start len) s = .next { s with crcResult := 0 })) ∧
      (3816 < start.toNat + len.toNat → exec (.crcRun start len) s = .next { s with cmdErr := true })

/-- EQ_INIT (42_crc32.md R203, with the empty store of R204 byte by byte): magic, version and checksum are compared in
that order; a valid store is kept byte for byte, another becomes the empty store; `ACTIVE` is NONE and `BQS` zero. -/
def Obligations.EqInitValidatesStore : Prop :=
  FormatNCommand 0x31 .eqInit ∧
    ∀ s : State, s.Inv →
      let p := s.params
      let sum := crc32 ((List.range (p.crcHi - p.crcLo)).map fun k => s.store.rd8 (p.crcLo + k))
      let emptySum := crc32 (List.replicate (p.crcHi - p.crcLo) 0)
      ∃ (m : Memory) (r : Reason),
        exec .eqInit s = .next { s with
          store := m
          storeValid := decide (r = .none)
          reason := r
          active := none
          bqs := Vector.replicate 20 ⟨F32.zero, F32.zero⟩ } ∧
        (r = .magic ↔ s.store.rd32 0 ≠ p.storeMagic) ∧
        (r = .version ↔ s.store.rd32 0 = p.storeMagic ∧ s.store.rd8 4 ≠ p.storeVersion) ∧
        (r = .crc ↔ s.store.rd32 0 = p.storeMagic ∧ s.store.rd8 4 = p.storeVersion ∧ s.store.rd32 8 ≠ sum) ∧
        (r = .none → m = s.store) ∧
        (r ≠ .none → ∀ j, m.rd8 j =
          if j < 4 then p.storeMagic.extractLsb' (8 * j) 8
          else if j = 4 then p.storeVersion
          else if 8 ≤ j ∧ j < 12 then emptySum.extractLsb' (8 * (j - 8)) 8
          else 0)

/-- STORE_SEAL (42_crc32.md R205): bytes 8 to 11 are the CRC32 of the checked region, little-endian; no other byte and
nothing else changes; sealing twice gives the same store. -/
def Obligations.StoreSealWritesChecksum : Prop :=
  FormatNCommand 0x32 .storeSeal ∧
    ∀ s : State, s.Inv →
      let p := s.params
      let sum := crc32 ((List.range (p.crcHi - p.crcLo)).map fun k => s.store.rd8 (p.crcLo + k))
      ∃ m : Memory, exec .storeSeal s = .next { s with store := m } ∧
        (∀ j, m.rd8 j = if 8 ≤ j ∧ j < 12 then sum.extractLsb' (8 * (j - 8)) 8 else s.store.rd8 j) ∧
        exec .storeSeal { s with store := m } = .next { s with store := m }

/-- After an EQ_INIT, whatever it found, a second one finds the store valid and keeps it (42_crc32.md R203: the empty
store "would itself pass a second EQ_INIT"). A store whose magic and version match passes EQ_INIT once sealed, and is
kept byte for byte (R205). -/
def Obligations.EqInitAcceptsEmptyAndSealedStores : Prop :=
  (∀ s t : State, s.Inv → exec .eqInit s = .next t →
    exec .eqInit t = .next { t with storeValid := true, reason := .none }) ∧
  ∀ s t : State, s.Inv → s.store.rd32 0 = s.params.storeMagic → s.store.rd8 4 = s.params.storeVersion →
    exec .storeSeal s = .next t →
      ∃ u, exec .eqInit t = .next u ∧ u.storeValid = true ∧ u.reason = .none ∧ u.store = t.store

/-- The checker catches every change of a single byte of the checked region of a store that passes EQ_INIT: the next
EQ_INIT reports CRC and installs the empty store (42_crc32.md R200 to R203). That the region holds no header byte, so that
magic, version and checksum are untouched, is part of the invariant: log 9 (DEDUCED). -/
def Obligations.SingleByteCorruptionCaught : Prop :=
  ∀ (s : State) (i : Nat) (v : Byte), s.Inv → storeVerdict s.params s.store = .none →
    s.params.crcLo ≤ i → i < s.params.crcHi → v ≠ s.store.rd8 i →
      ∃ t, exec .eqInit { s with store := s.store.wr8 i v } = .next t ∧
        t.storeValid = false ∧ t.reason = .crc ∧ t.store = emptyStore s.params

/-- VOL_COMPUTE (44_volume.md R296) with the scale of R294: 0 under either mute, else the host curve times the headroom,
shifted, times the quadratic dial, shifted; only `VOLSCALE` changes. -/
def Obligations.VolComputeLatchesScale : Prop :=
  FormatNCommand 0x20 .volCompute ∧
    ∀ s : State, s.Inv →
      ∃ v : Nat, s.params.volCurve[(s.hostVol - s.params.volDbMin).toNat]? = some v ∧
        exec .volCompute s = .next { s with
          volScale :=
            if s.hostMute = true ∨ s.localMute = true then 0
            else ((v * s.params.headroom.get s.pwrTier) >>> 8 * (s.localAtt * s.localAtt * 256 / 10000)) >>> 8 }

/-- The local curve (44_volume.md R293): the quadratic, 0 at 0, 256 at 100, never falling, 0 exactly up to 6, at
most 256. The scale (R294) is an integer 0..256, and it is 256 only without a mute and with all three factors 256. -/
def Obligations.VolumeCurvesAndBounds : Prop :=
  ((∀ a : Nat, localCurve a = a * a * 256 / 10000) ∧ localCurve 0 = 0 ∧ localCurve 100 = 256 ∧
    (∀ a b : Nat, a ≤ b → localCurve a ≤ localCurve b) ∧
    (∀ a : Nat, localCurve a = 0 ↔ a ≤ 6) ∧ (∀ a : Nat, a ≤ 100 → localCurve a ≤ 256)) ∧
  ∀ s : State, s.Inv →
    s.volscale ≤ 256 ∧
      (s.volscale = 256 ↔ s.hostMute = false ∧ s.localMute = false ∧ hostCurve s.params s.hostVol = 256 ∧
        headroomOf s.params s.pwrTier = 256 ∧ localCurve s.localAtt = 256)

/-! ## The cascade -/

/-- BQ_PROCESS (41_biquad.md R162): its words and its rejections; with legal operands it completes and changes only the
first 2 x NFR words of `WORK`, `BQS`, and the model's frame counter; with no valid active profile it changes nothing at
all (R157, R159); with one the words it writes are 24-bit samples (R156), and a filter that does not run, or lies past
`filter_count`, keeps its state (R153, R155). -/
def Obligations.BqProcessFrame : Prop :=
  FormatPCommand 0x02 .bqProcess ∧
  ∀ (s : State) (nfr : BitVec 12) (vs : BitVec 9),
    (s.params.halfFrames < nfr.toNat ∨ 256 < vs.toNat →
      exec (.bqProcess nfr vs) s = .next { s with cmdErr := true }) ∧
    (nfr.toNat ≤ s.params.halfFrames → vs.toNat ≤ 256 →
      (∀ p : Fin 10, s.active = some p →
        s.store.rd8 (16 + 380 * p.val) = 0 ∨ s.store.rd8 (16 + 380 * p.val + 16) = 0) →
      exec (.bqProcess nfr vs) s = .next s) ∧
    (s.Inv → nfr.toNat ≤ s.params.halfFrames → vs.toNat ≤ 256 →
      ∃ (work : List Word) (bqs : Vector Delay 20) (k : Nat),
        exec (.bqProcess nfr vs) s = .next { s with work := work, bqs := bqs, cascadeFrames := k } ∧
        work.length = s.work.length ∧
        (∀ w, 2 * nfr.toNat ≤ w → work.getD w 0 = s.work.getD w 0) ∧
        (∀ p, s.validActive = some p → ∀ w, w < 2 * nfr.toNat → inSampleRange (work.getD w 0)) ∧
        (∀ p, s.validActive = some p → ∀ (f : Fin 10) (c : Fin 2),
          ((s.store.rd8 (16 + 380 * p.val + 16)).toNat ≤ f.val ∨
            s.store.rd8 (16 + 380 * p.val + 20 + 36 * f.val + 33) = 0 ∨
            s.store.rd8 (16 + 380 * p.val + 20 + 36 * f.val + 32) = 0) →
          getDelay bqs f c = getDelay s.bqs f c))

/-- A profile none of whose filters run is pure pre-attenuation and volume, and leaves `BQS` unchanged (41_biquad.md
R162, R151, R156, R158). -/
def Obligations.BqProcessFiltersOff : Prop :=
  ∀ (s : State) (nfr : BitVec 12) (vs : BitVec 9) (p : Fin 10), s.Inv →
    nfr.toNat ≤ s.params.halfFrames → vs.toNat ≤ 256 → s.validActive = some p →
    (∀ k : Fin 10, s.store.rd8 (16 + 380 * p.val + 20 + 36 * k.val + 33) = 0 ∨
      s.store.rd8 (16 + 380 * p.val + 20 + 36 * k.val + 32) = 0) →
    let g := F32.fmul (F32.ofBits s.params.preAtt) (F32.fmul (F32.i2f vs.toNat) (F32.ofBits 0x3B800000))
    exec (.bqProcess nfr vs) s = .next { s with
      work := (s.work.take (2 * nfr.toNat)).map (fun v => BitVec.ofInt 32 (F32.f2s24 (F32.fmul
          (F32.fmul (F32.fmul (F32.i2f v.toInt) (F32.ofBits 0x34000000)) g) (F32.ofBits 0x4B000000)))) ++
        s.work.drop (2 * nfr.toNat)
      cascadeFrames := s.cascadeFrames + nfr.toNat }

/-- What BQ_PROCESS computes with a valid active profile (41_biquad.md R151, R152, R154 to R156, R159). One frame: on each
channel the values `x c 0`, `x c 1`, ... pass through the first `min(filter_count, 10)` filters in profile order, each
output the next filter's input; a running filter follows the DF2T equations with its own coefficients and slot, any other
passes its input on, and only running filters change their slot. Several frames: n + 1 frames are n frames and then one
more, from the state the n frames left. -/
def Obligations.BqProcessComputesCascade : Prop :=
  (∀ (s : State) (vs : BitVec 9) (p : Fin 10), s.Inv → vs.toNat ≤ 256 → s.active = some p →
    s.store.rd8 (16 + 380 * p.val) ≠ 0 → s.store.rd8 (16 + 380 * p.val + 16) ≠ 0 →
    let nf := min (s.store.rd8 (16 + 380 * p.val + 16)).toNat 10
    ∃ (t : State) (x : Fin 2 → Nat → F32), exec (.bqProcess 1 vs) s = .next t ∧
      ∀ c : Fin 2,
        x c 0 = sampleIn (s.work.getD c.val 0) (callGain s.params.preAtt vs.toNat) ∧
        t.work.getD c.val 0 = sampleOut (x c nf) ∧
        ∀ k : Fin 10,
          let q := 16 + 380 * p.val + 20 + 36 * k.val
          let runs := k.val < nf ∧ s.store.rd8 (q + 33) ≠ 0 ∧ s.store.rd8 (q + 32) ≠ 0
          let b0 := F32.ofBits (s.store.rd32 q)
          let b1 := F32.ofBits (s.store.rd32 (q + 4))
          let b2 := F32.ofBits (s.store.rd32 (q + 8))
          let a1 := F32.ofBits (s.store.rd32 (q + 12))
          let a2 := F32.ofBits (s.store.rd32 (q + 16))
          let d := getDelay s.bqs k c
          let y := F32.fadd (F32.fmul b0 (x c k.val)) d.s1
          (runs → x c (k.val + 1) = y ∧
            getDelay t.bqs k c = ⟨F32.fadd (F32.fsub (F32.fmul b1 (x c k.val)) (F32.fmul a1 y)) d.s2,
              F32.fsub (F32.fmul b2 (x c k.val)) (F32.fmul a2 y)⟩) ∧
          (¬ runs → getDelay t.bqs k c = d ∧ (k.val < nf → x c (k.val + 1) = x c k.val))) ∧
  ∀ (s : State) (vs : BitVec 9) (n : Nat), s.Inv → vs.toNat ≤ 256 → n + 1 ≤ s.params.halfFrames →
    ∃ t u : State, exec (.bqProcess (BitVec.ofNat 12 n) vs) s = .next t ∧
      exec (.bqProcess 1 vs) { t with work := t.work.drop (2 * n) ++ t.work.take (2 * n) } = .next u ∧
      exec (.bqProcess (BitVec.ofNat 12 (n + 1)) vs) s =
        .next { u with work := t.work.take (2 * n) ++ u.work.take 2 ++ t.work.drop (2 * n + 2) }

/-- The two channels do not see each other: runs that agree on the store, the selection, the parameters, `BQS[*][c]` and
the words of channel c agree on channel c afterwards, whatever the other channel holds (41_biquad.md R159, R160). -/
def Obligations.ChannelsIndependent : Prop :=
  ∀ (c : Fin 2) (s t : State) (nfr : BitVec 12) (vs : BitVec 9), s.Inv → t.Inv →
    nfr.toNat ≤ s.params.halfFrames → vs.toNat ≤ 256 → sameChannel c s t →
    channelWords c.val (s.work.take (2 * nfr.toNat)) = channelWords c.val (t.work.take (2 * nfr.toNat)) →
    ∃ s' t', exec (.bqProcess nfr vs) s = .next s' ∧ exec (.bqProcess nfr vs) t = .next t' ∧
      sameChannel c s' t' ∧
      channelWords c.val (s'.work.take (2 * nfr.toNat)) = channelWords c.val (t'.work.take (2 * nfr.toNat))

/-- At volume 0 a cascade at rest is silent, whatever the coefficients, the pre-attenuation and the samples, and stays
at rest (41_biquad.md R162, 44_volume.md R295). For infinite or NaN coefficients and pre-attenuation this rests on
infinity times zero being NaN and on NaN propagating, which is the model's reading of IEEE 754: log 8 (PRESUMED). -/
def Obligations.MutedCascadeAtRestIsSilent : Prop :=
  ∀ (s : State) (nfr : BitVec 12) (p : Fin 10), s.Inv → nfr.toNat ≤ s.params.halfFrames → s.validActive = some p →
    (∀ i : Fin 20, (s.bqs.get i).s1.silent = true ∧ (s.bqs.get i).s2.silent = true) →
    ∃ t, exec (.bqProcess nfr 0) s = .next t ∧
      (∀ w, w < 2 * nfr.toNat → t.work.getD w 1 = 0) ∧
      ∀ i : Fin 20, (t.bqs.get i).s1.silent = true ∧ (t.bqs.get i).s2.silent = true

/-! ## Binary32 arithmetic -/

/-- The number a bit pattern stands for (00_scope.md R11, 20_memory.md R94): sign bit 31, exponent field bits 30:23,
fraction bits 22:0; exponent field 255 is an infinity with fraction 0 and a NaN otherwise, 0 a zero or subnormal, any
other a normal number. Bits and values correspond: a value is recovered from its pattern, with any NaN pattern for a NaN,
and a pattern that is not a NaN's from its value (R97). The operations stay in the format, on all operands (R11). -/
def Obligations.BinaryValuesAndPatterns : Prop :=
  (∀ w : Word,
    let neg := w.getLsbD 31
    let field : Nat := w.toNat / 2 ^ 23 % 2 ^ 8
    let frac : Nat := w.toNat % 2 ^ 23
    let x := F32.ofBits w
    (field = 255 → frac = 0 → x = .inf neg) ∧
    (field = 255 → frac ≠ 0 → x = .nan) ∧
    (field ≠ 255 → x.finite = true ∧ x.negative = neg ∧
      x.value = (if neg = true then -1 else 1) *
        (if field = 0 then (frac : ℚ) / 2 ^ 149 else (1 + (frac : ℚ) / 2 ^ 23) * 2 ^ ((field : ℤ) - 127)))) ∧
  (∀ (sign : Bool) (frac : Nat) (x : F32), 1 ≤ frac → frac < 2 ^ 23 → x.canonical = true →
    F32.ofBits (F32.toBits sign frac x) = x) ∧
  (∀ (sign : Bool) (frac : Nat) (w : Word), F32.ofBits w ≠ .nan → F32.toBits sign frac (F32.ofBits w) = w) ∧
  (∀ w : Word, (F32.ofBits w).canonical = true) ∧
  ∀ (a b : F32) (v : Int), a.canonical = true → b.canonical = true →
    (F32.fadd a b).canonical = true ∧ (F32.fsub a b).canonical = true ∧ (F32.fmul a b).canonical = true ∧
      (F32.i2f v).canonical = true

/-- Each operation on finite operands is the exact result rounded once to nearest, ties to even (00_scope.md R11,
41_biquad.md R150): finite whenever the exact result lies below 2^128 - 2^103, and an infinity of its sign from there on.
Overflow, the signs of zeros, and what the operations give on infinities and NaNs are the standard's, which R11 names
without spelling them out: log 8 (PRESUMED). -/
def Obligations.ArithmeticRoundsToNearestEven : Prop :=
  (∀ a b : F32, a.canonical = true → b.canonical = true → a.finite = true → b.finite = true →
    RoundsTo (a.value + b.value) (F32.fadd a b) ∧
    RoundsTo (a.value - b.value) (F32.fsub a b) ∧
    RoundsTo (a.value * b.value) (F32.fmul a b) ∧
    (a.value + b.value = 0 → (F32.fadd a b).negative = (a.negative && b.negative)) ∧
    (a.value - b.value = 0 → (F32.fsub a b).negative = (a.negative && !b.negative)) ∧
    (F32.fmul a b).negative = (a.negative != b.negative) ∧
    ∀ s : Bool,
      F32.fadd (.inf s) b = .inf s ∧ F32.fadd a (.inf s) = .inf s ∧
      F32.fsub (.inf s) b = .inf s ∧ F32.fsub a (.inf s) = .inf (!s) ∧
      F32.fmul (.inf s) b = (if b.value = 0 then .nan else .inf (s != b.negative)) ∧
      F32.fmul a (.inf s) = (if a.value = 0 then .nan else .inf (a.negative != s))) ∧
  (∀ s t : Bool,
    F32.fadd (.inf s) (.inf t) = (if s = t then .inf s else .nan) ∧
    F32.fsub (.inf s) (.inf t) = (if s = t then .nan else .inf s) ∧
    F32.fmul (.inf s) (.inf t) = .inf (s != t)) ∧
  ∀ x : F32,
    F32.fadd .nan x = .nan ∧ F32.fadd x .nan = .nan ∧ F32.fsub .nan x = .nan ∧ F32.fsub x .nan = .nan ∧
      F32.fmul .nan x = .nan ∧ F32.fmul x .nan = .nan

/-- Conversions. From integers (00_scope.md R11, 41_biquad.md R151): every signed 32-bit integer gives a finite value
rounded to nearest, ties to even, exact up to 2^24. To 24-bit samples (R156): 0 for a NaN, 8388607 from 8388607 on and for
+infinity, -8388608 down from -8388608 and for -infinity, and toward zero between. So a 24-bit sample comes back. -/
def Obligations.SampleConversionExact : Prop :=
  (∀ v : Word, (F32.i2f v.toInt).finite = true ∧ RoundsTo (v.toInt : ℚ) (F32.i2f v.toInt)) ∧
  F32.i2f 0 = .zero ∧
  (∀ t : F32, t.finite = true →
    (8388607 ≤ t.value → F32.f2s24 t = 8388607) ∧
    (t.value ≤ -8388608 → F32.f2s24 t = -8388608) ∧
    (-8388608 < t.value → t.value < 8388607 → F32.f2s24 t = if 0 ≤ t.value then ⌊t.value⌋ else ⌈t.value⌉)) ∧
  F32.f2s24 (.inf false) = 8388607 ∧ F32.f2s24 (.inf true) = -8388608 ∧ F32.f2s24 .nan = 0 ∧
  ∀ v : Int, -(2 ^ 24) ≤ v → v ≤ 2 ^ 24 →
    (F32.i2f v).finite = true ∧ (F32.i2f v).value = v ∧
      (-8388608 ≤ v → v ≤ 8388607 → F32.f2s24 (F32.i2f v) = v)

/-! ## The audio output -/

/-- Unpacking (43_audio_output.md R231): sample i is the signed 24-bit value of bytes 3i, 3i+1, 3i+2, least significant
first, and there are 2n samples in 6n bytes. Swapping (R232) exchanges the two samples of every frame read. Packing
(R235) keeps the value, or shifts it into bits 31:8; silence is 0 in both formats. -/
def Obligations.SampleFormats : Prop :=
  (∀ (n : Nat) (r : List Byte), r.length = 6 * n →
    (unpack r).length = 2 * n ∧
      ∀ i, i < 2 * n →
        let u : Int := (r.getD (3 * i) 0).toNat + 256 * (r.getD (3 * i + 1) 0).toNat +
          65536 * (r.getD (3 * i + 2) 0).toNat
        ((unpack r).getD i 0).toInt = if u < 2 ^ 23 then u else u - 2 ^ 24) ∧
  (∀ (s : State) (n j : Nat), 6 * n ≤ s.avail → j < n →
    let r := unpack (s.fifo.take (6 * n))
    (sourceWords s n).getD (2 * j) 0 = r.getD (if s.swapLr = true then 2 * j + 1 else 2 * j) 0 ∧
      (sourceWords s n).getD (2 * j + 1) 0 = r.getD (if s.swapLr = true then 2 * j else 2 * j + 1) 0) ∧
  ∀ v : Word, inSampleRange v →
    pack .sext32 v = v ∧ (pack .lj32 v).toInt = v.toInt * 256 ∧ pack .sext32 0 = 0 ∧ pack .lj32 0 = 0

/-- EQ dispatch (43_audio_output.md R233): with a valid active profile a fill runs the very cascade that BQ_PROCESS runs
on the same samples (41_biquad.md R159, R162); with `ACTIVE` NONE or at an empty slot it is `LEGACY_EQ`, which gives the
samples and the new `LEG` and changes nothing else; its samples are 24-bit and as many as it was given (00_scope.md R8;
log 7). -/
def Obligations.FillEngineIsBqProcessOrLegacy : Prop :=
  ∀ (s : State) (words : List Word) (n vs : Nat), s.Inv → words.length = 2 * n → n ≤ s.params.halfFrames → vs ≤ 256 →
    (∀ p : Fin 10, s.active = some p →
      s.store.rd8 (16 + 380 * p.val) ≠ 0 → s.store.rd8 (16 + 380 * p.val + 16) ≠ 0 →
      ∃ t, exec (.bqProcess (BitVec.ofNat 12 n) (BitVec.ofNat 9 vs))
          { s with work := words ++ List.replicate (2 * s.params.halfFrames - 2 * n) 0 } = .next t ∧
        (eqDispatch s words vs).1 = { t with work := s.work } ∧
        (eqDispatch s words vs).2 = t.work.take (2 * n)) ∧
    ((∀ p : Fin 10, s.active = some p →
        s.store.rd8 (16 + 380 * p.val) = 0 ∨ s.store.rd8 (16 + 380 * p.val + 16) = 0) →
      (eqDispatch s words vs).1 = { s with leg := Config.legacyNext s.leg words vs } ∧
        (eqDispatch s words vs).2.length = 2 * n ∧
        ∀ i, i < 2 * n →
          (eqDispatch s words vs).2.getD i 0 = (Config.legacySample s.leg words vs i).signExtend 32 ∧
          inSampleRange ((eqDispatch s words vs).2.getD i 0))

/-- AO_START (43_audio_output.md R241): what it sets; everything else, flags, DMA, FIFO, counters, `VOLSCALE`, `ACTIVE`
and the legacy state among them, is unchanged. -/
def Obligations.AoStartSilencesAndPrebuffers : Prop :=
  FormatNCommand 0x10 .aoStart ∧
    ∀ s : State, exec .aoStart s = .next { s with
      buf := List.replicate (4 * s.params.halfFrames) 0
      heldL := 0
      heldR := 0
      bqs := Vector.replicate 20 ⟨F32.zero, F32.zero⟩
      pipe := .prebuf
      ampEn := false
      lastFill := .none }

/-- AO_STOP (43_audio_output.md R242, R246): silence, the DMA restarted at frame 0 with no flag set, unmuted, the
amplifier off, STOPPED; everything else is unchanged. -/
def Obligations.AoStopRestartsAgainstSilence : Prop :=
  FormatNCommand 0x11 .aoStop ∧
    ∀ s : State, exec .aoStop s = .next { s with
      buf := List.replicate (4 * s.params.halfFrames) 0
      dmaPos := 0
      nf0 := false
      nf1 := false
      dmaRun := true
      outMute := false
      ampEn := false
      pipe := .stopped }

/-- AO_TASK has nothing to do, and does nothing, in STOPPED, in PREBUF below the threshold, and in STREAMING with no
flag set (43_audio_output.md R243 to R245). -/
def Obligations.AoTaskIdle : Prop :=
  FormatNCommand 0x12 .aoTask ∧
    ∀ s : State,
      (s.pipe = .stopped ∨ (s.pipe = .prebuf ∧ s.avail < s.params.prebufBytes) ∨
        (s.pipe = .streaming ∧ s.nf0 = false ∧ s.nf1 = false)) →
      exec .aoTask s = .next s

/-- The prebuffer transition (43_audio_output.md R244): one or two full fills as the data allows, the DMA restarted, the
amplifier on, STREAMING; half 1 keeps its words when only one half was filled; nothing else changes. The fills are those
that AO_TASK makes of the same state while streaming, with the same halves flagged (R237): a state with the invariant, to
which `AoTaskServicesFlaggedHalf` and `AoTaskServicesHalvesInOrder` apply. -/
def Obligations.AoTaskPrebufferTransition : Prop :=
  ∀ s : State, s.Inv → s.pipe = .prebuf → s.params.prebufBytes ≤ s.avail →
    let n := if 2 * s.params.halfBytes ≤ s.avail then 2 else 1
    let flagged : State := { s with pipe := .streaming, ampEn := true, nf0 := true, nf1 := decide (n = 2) }
    flagged.Inv ∧
    ∃ u : State,
      exec .aoTask flagged = .next u ∧
      exec .aoTask s = .next { u with dmaPos := 0, nf0 := false, nf1 := false, dmaRun := true } ∧
      u = { s with
        buf := u.buf
        bqs := u.bqs
        cascadeFrames := u.cascadeFrames
        leg := u.leg
        heldL := u.heldL
        heldR := u.heldR
        volScale := s.volscale
        fifo := s.fifo.drop (n * s.params.halfBytes)
        fullCnt := s.fullCnt + BitVec.ofNat 32 n
        lastFill := .full
        nf0 := false
        nf1 := false
        ampEn := true
        pipe := .streaming } ∧
      (n = 1 → u.halfWords 1 = s.halfWords 1)

/-- Servicing one flagged half (43_audio_output.md R240, R234, R236 to R239, R252, R253): which fill runs for which
amount of data, what it consumes and counts, that the half then holds the packed output of the EQ for the frames there
were and the held pair for the rest, that a hold reads nothing and leaves the filters and the held pair alone, that the
other half keeps its words, and that nothing else changes. -/
def Obligations.AoTaskServicesFlaggedHalf : Prop :=
  ∀ (s : State) (h : Fin 2), s.Inv → s.pipe = .streaming → s.nf h = true → s.nf (h + 1) = false →
    let n := if s.params.halfBytes ≤ s.avail then s.params.halfFrames else s.avail / 6
    let r := eqDispatch s (sourceWords s n) s.volscale
    ∃ t : State, exec .aoTask s = .next t ∧
      t = { s with
        buf := t.buf
        bqs := t.bqs
        cascadeFrames := t.cascadeFrames
        leg := t.leg
        heldL := t.heldL
        heldR := t.heldR
        fifo := s.fifo.drop (6 * n)
        fullCnt := t.fullCnt
        partCnt := t.partCnt
        holdCnt := t.holdCnt
        lastFill := t.lastFill
        volScale := s.volscale
        nf0 := false
        nf1 := false } ∧
      t.halfWords (h + 1) = s.halfWords (h + 1) ∧
      (s.params.halfBytes ≤ s.avail →
        t.lastFill = .full ∧ t.fullCnt = s.fullCnt + 1 ∧ t.partCnt = s.partCnt ∧ t.holdCnt = s.holdCnt) ∧
      (6 ≤ s.avail → s.avail < s.params.halfBytes →
        t.lastFill = .part ∧ t.fullCnt = s.fullCnt ∧ t.partCnt = s.partCnt + 1 ∧ t.holdCnt = s.holdCnt) ∧
      (6 ≤ s.avail →
        t.bqs = r.1.bqs ∧ t.leg = r.1.leg ∧
          t.heldL = r.2.getD (2 * n - 2) 0 ∧ t.heldR = r.2.getD (2 * n - 1) 0) ∧
      (s.avail < 6 →
        t.lastFill = .hold ∧ t.fullCnt = s.fullCnt ∧ t.partCnt = s.partCnt ∧ t.holdCnt = s.holdCnt + 1 ∧
          t.heldL = s.heldL ∧ t.heldR = s.heldR ∧ t.bqs = s.bqs ∧ t.leg = s.leg) ∧
      (t.halfWords h).length = 2 * s.params.halfFrames ∧
      ∀ j, j < s.params.halfFrames →
        (t.halfWords h).getD (2 * j) 0 =
            pack s.params.outPack (if j < n then r.2.getD (2 * j) 0 else t.heldL) ∧
          (t.halfWords h).getD (2 * j + 1) 0 =
            pack s.params.outPack (if j < n then r.2.getD (2 * j + 1) 0 else t.heldR)

/-- With both flags set, half 0 is serviced and then half 1 with what is left (43_audio_output.md R245). -/
def Obligations.AoTaskServicesHalvesInOrder : Prop :=
  ∀ s : State, s.pipe = .streaming → s.nf0 = true → s.nf1 = true →
    ∃ u t, exec .aoTask { s with nf1 := false } = .next u ∧ exec .aoTask { u with nf1 := true } = .next t ∧
      exec .aoTask s = .next t

/-- `IRQ` is the level of 60_exceptions.md R316, `STATUS` shows it, and AO_TASK while streaming, the prebuffer
transition and AO_STOP drop it. -/
def Obligations.InterruptLevel : Prop :=
  (∀ s : State, s.statusWord.getLsbD 14 = true ↔
    s.irqEn = true ∧ ((s.pipe = .streaming ∧ (s.nf0 = true ∨ s.nf1 = true)) ∨
      (s.pipe = .prebuf ∧ s.params.prebufBytes ≤ s.avail))) ∧
  (∀ (s t : State) (i : Instr), exec i s = .next t →
    (i = .aoStop ∨ (i = .aoTask ∧ (s.pipe = .streaming ∨ s.params.prebufBytes ≤ s.avail))) → t.irq = false)

/-- A DMA step (43_audio_output.md R247): the frame at `DMA_POS` is emitted with the amplifier and mute levels, the last
frame of a half sets that half's flag, a late start is recorded, the position wraps; nothing else changes. -/
def Obligations.DmaStepEffect : Prop :=
  ∀ s : State, s.Inv → s.next .dma →
    let hf := s.params.halfFrames
    let f := s.dmaPos
    let h : Fin 2 := if f < hf then 0 else 1
    step s = .next { (nextInput s).2 with
      late := if f = h.val * hf ∧ s.pipe = .streaming ∧ s.nf h = true then true else s.late
      out := s.out ++ [⟨s.buf.getD (2 * f) 0, s.buf.getD (2 * f + 1) 0, s.ampEn, s.outMute⟩]
      nf0 := if f = hf - 1 then true else s.nf0
      nf1 := if f = 2 * hf - 1 then true else s.nf1
      dmaPos := (f + 1) % (2 * hf) }

/-- A lap of 2 x `HALF_FRAMES` DMA steps from frame 0 plays the whole of `BUF` in order, sets both flags, returns to
frame 0 and changes neither `BUF` nor the pipeline state (43_audio_output.md R247, R248, R251). -/
def Obligations.DmaLapPlaysBuffer : Prop :=
  ∀ (s : State) (rest : List Input), s.Inv → s.dmaPos = 0 →
    s.inputs = List.replicate (2 * s.params.halfFrames) .dma ++ rest →
    ∃ t : State, Sys2Proof.core.run (2 * s.params.halfFrames) s = .next t ∧
      t.out = s.out ++ (List.range (2 * s.params.halfFrames)).map
        (fun f => ⟨s.buf.getD (2 * f) 0, s.buf.getD (2 * f + 1) 0, s.ampEn, s.outMute⟩) ∧
      t.nf0 = true ∧ t.nf1 = true ∧ t.dmaPos = 0 ∧ t.buf = s.buf ∧ t.pipe = s.pipe ∧ t.inputs = rest

/-- A SRC step (43_audio_output.md R250): the byte joins the FIFO's end, or is dropped when the FIFO is full; nothing
else changes. -/
def Obligations.SrcStepQueuesOrDrops : Prop :=
  ∀ (s : State) (b : Byte) (rest : List Input), s.inputs = .src b :: rest →
    (s.fifo.length < s.params.srcCap → step s = .next { s with inputs := rest, fifo := s.fifo ++ [b] }) ∧
    (s.params.srcCap ≤ s.fifo.length → step s = .next { s with inputs := rest })
end

