-- ==== Sys2Proof/Laws/Memory.lean ====
section
/-! SUPPORT. `STORE`: read after write, frames, the canonical form, and the parameters' ranges. -/

namespace Sys2Proof.Machine

open Sys2Proof

/-! ## Cells -/

/-- A cell list whose indexes all exceed `a` reads as unlisted at `a`. -/
theorem lookupCell_above {a : Nat} : ∀ {l : List Host.Cell}, (∀ c ∈ l, a < c.1) → lookupCell a l = Memory.unlisted
  | [], _ => rfl
  | (b, w) :: rest, h => by
    have hb : a < b := h (b, w) (by simp)
    simp only [lookupCell, if_neg (Nat.ne_of_lt hb)]
    exact lookupCell_above fun c hc => h c (List.mem_cons_of_mem _ hc)

/-- Every index of an updated list is the updated one or was there before. -/
theorem mem_insertCell {a : Nat} {v : Byte} {c : Host.Cell} :
    ∀ {l : List Host.Cell}, c ∈ insertCell a v l → (c = (a, v) ∧ v ≠ Memory.unlisted) ∨ c ∈ l
  | [], h => by
    unfold insertCell at h
    split at h <;> simp_all
  | (b, w) :: rest, h => by
    unfold insertCell at h
    split at h
    · split at h
      · exact .inr h
      · rcases List.mem_cons.1 h with rfl | h
        · exact .inl ⟨rfl, by assumption⟩
        · exact .inr h
    · split at h
      · split at h
        · exact .inr (List.mem_cons_of_mem _ h)
        · rcases List.mem_cons.1 h with rfl | h
          · exact .inl ⟨rfl, by assumption⟩
          · exact .inr (List.mem_cons_of_mem _ h)
      · rcases List.mem_cons.1 h with rfl | h
        · exact .inr (by simp)
        · rcases mem_insertCell h with h | h
          · exact .inl h
          · exact .inr (List.mem_cons_of_mem _ h)

/-- Read after write of one cell. -/
theorem lookupCell_insertCell (a : Nat) (v : Byte) (j : Nat) :
    ∀ {l : List Host.Cell}, l.Pairwise (fun x y => x.1 < y.1) →
      lookupCell j (insertCell a v l) = if j = a then v else lookupCell j l
  | [], _ => by
    unfold insertCell
    split <;> simp_all [lookupCell]
  | (b, w) :: rest, h => by
    have hrest : ∀ c ∈ rest, b < c.1 := (List.pairwise_cons.1 h).1
    have ih := lookupCell_insertCell a v j (List.pairwise_cons.1 h).2
    unfold insertCell
    split
    · rename_i hab
      have habove : lookupCell a ((b, w) :: rest) = Memory.unlisted :=
        lookupCell_above (by
          intro c hc
          rcases List.mem_cons.1 hc with rfl | hc
          · exact hab
          · exact Nat.lt_trans hab (hrest c hc))
      split
      · rename_i hv
        by_cases hj : j = a
        · rw [hj, habove, if_pos rfl, hv]
        · rw [if_neg hj]
      · by_cases hj : j = a <;> simp [lookupCell, hj]
    · split
      · rename_i hab
        subst hab
        split
        · rename_i hv
          by_cases hj : j = a
          · subst hj
            rw [if_pos rfl, lookupCell_above hrest, hv]
          · simp [lookupCell, hj]
        · by_cases hj : j = a <;> simp [lookupCell, hj]
      · rename_i hlt hne
        by_cases hj : j = b
        · subst hj
          simp [lookupCell, Ne.symm hne]
        · simp [lookupCell, hj, ih]

/-- A cell update keeps the indexes strictly rising. -/
theorem insertCell_pairwise (a : Nat) (v : Byte) :
    ∀ {l : List Host.Cell}, l.Pairwise (fun x y => x.1 < y.1) → (insertCell a v l).Pairwise (fun x y => x.1 < y.1)
  | [], _ => by
    unfold insertCell
    split <;> simp
  | (b, w) :: rest, h => by
    have hrest := (List.pairwise_cons.1 h).1
    have htail := (List.pairwise_cons.1 h).2
    unfold insertCell
    split
    · rename_i hab
      split
      · exact h
      · refine List.pairwise_cons.2 ⟨?_, h⟩
        intro c hc
        rcases List.mem_cons.1 hc with rfl | hc
        · exact hab
        · exact Nat.lt_trans hab (hrest c hc)
    · split
      · rename_i hab
        subst hab
        split
        · exact htail
        · exact List.pairwise_cons.2 ⟨hrest, htail⟩
      · rename_i hlt hne
        refine List.pairwise_cons.2 ⟨?_, insertCell_pairwise a v htail⟩
        intro c hc
        rcases mem_insertCell hc with ⟨rfl, -⟩ | hc
        · simp only
          omega
        · exact hrest c hc

/-! ## `STORE` -/

/-- A byte write keeps the canonical form. -/
theorem Memory.wf_wr8 {m : Memory} (h : m.wf) (i : Nat) (v : Byte) : (m.wr8 i v).wf := by
  unfold Memory.wr8
  split
  · rename_i hi
    refine ⟨insertCell_pairwise i v h.1, fun c hc => ?_⟩
    rcases mem_insertCell hc with ⟨rfl, hv⟩ | hc
    · exact ⟨hi, hv⟩
    · exact h.2 c hc
  · exact h

/-- Read after write of a byte: the written byte, and every other byte as before. -/
theorem Memory.rd8_wr8 {m : Memory} (h : m.wf) {i : Nat} (hi : i < 3816) (v : Byte) (j : Nat) :
    (m.wr8 i v).rd8 j = if j = i then v else m.rd8 j := by
  unfold Memory.wr8 Memory.rd8
  rw [if_pos hi]
  exact lookupCell_insertCell i v j h.1

/-- A byte past the end of a canonical store reads as unlisted. -/
theorem Memory.rd8_past {m : Memory} (h : m.wf) {j : Nat} (hj : 3816 ≤ j) : m.rd8 j = 0 := by
  have main : ∀ l : List Host.Cell, (∀ c ∈ l, c.1 < 3816) → lookupCell j l = 0 := by
    intro l
    induction l with
    | nil => intro _; rfl
    | cons c rest ih =>
      intro hl
      have hc := hl c (by simp)
      unfold lookupCell
      rw [if_neg (by omega)]
      exact ih fun d hd => hl d (List.mem_cons_of_mem _ hd)
  exact main m.cells fun c hc => (h.2 c hc).1

theorem Memory.wf_wr16 {m : Memory} (h : m.wf) (i : Nat) (v : BitVec 16) : (m.wr16 i v).wf :=
  Memory.wf_wr8 (Memory.wf_wr8 h _ _) _ _

theorem Memory.wf_wr32 {m : Memory} (h : m.wf) (i : Nat) (v : Word) : (m.wr32 i v).wf :=
  Memory.wf_wr8 (Memory.wf_wr8 (Memory.wf_wr8 (Memory.wf_wr8 h _ _) _ _) _ _) _ _

theorem Memory.wf_zero (n : Nat) : ∀ {m : Memory}, m.wf → ∀ i, (m.zero i n).wf := by
  induction n with
  | zero => intro m h i; exact h
  | succ n ih => intro m h i; exact ih (Memory.wf_wr8 h i 0) (i + 1)

/-- The two bytes of a half-word write. -/
theorem Memory.rd8_wr16 {m : Memory} (h : m.wf) {i : Nat} (hi : i + 2 ≤ 3816) (v : BitVec 16) (j : Nat) :
    (m.wr16 i v).rd8 j =
      if j = i then v.extractLsb' 0 8 else if j = i + 1 then v.extractLsb' 8 8 else m.rd8 j := by
  unfold Memory.wr16
  rw [Memory.rd8_wr8 (Memory.wf_wr8 h _ _) (by omega), Memory.rd8_wr8 h (by omega)]
  split <;> split <;> first | rfl | omega

/-- The four bytes of a word write. -/
theorem Memory.rd8_wr32 {m : Memory} (h : m.wf) {i : Nat} (hi : i + 4 ≤ 3816) (v : Word) (j : Nat) :
    (m.wr32 i v).rd8 j =
      if j = i then v.extractLsb' 0 8 else if j = i + 1 then v.extractLsb' 8 8
      else if j = i + 2 then v.extractLsb' 16 8 else if j = i + 3 then v.extractLsb' 24 8 else m.rd8 j := by
  unfold Memory.wr32
  rw [Memory.rd8_wr8 (Memory.wf_wr8 (Memory.wf_wr8 (Memory.wf_wr8 h _ _) _ _) _ _) (by omega),
    Memory.rd8_wr8 (Memory.wf_wr8 (Memory.wf_wr8 h _ _) _ _) (by omega),
    Memory.rd8_wr8 (Memory.wf_wr8 h _ _) (by omega), Memory.rd8_wr8 h (by omega)]
  repeat' split
  all_goals first | rfl | omega

/-- Zeroed bytes read 0, every other byte as before. -/
theorem Memory.rd8_zero (n : Nat) :
    ∀ {m : Memory}, m.wf → ∀ (i : Nat), i + n ≤ 3816 → ∀ j,
      (m.zero i n).rd8 j = if i ≤ j ∧ j < i + n then 0 else m.rd8 j := by
  induction n with
  | zero =>
    intro m _ i _ j
    rw [if_neg (by omega)]
    rfl
  | succ n ih =>
    intro m h i hi j
    unfold Memory.zero
    rw [ih (Memory.wf_wr8 h i 0) (i + 1) (by omega), Memory.rd8_wr8 h (by omega)]
    split <;> split <;> first | rfl | (split <;> first | rfl | omega) | omega

/-- Four equal bytes make equal words. -/
theorem Memory.rd32_congr {m n : Memory} {i : Nat} (h : ∀ j, i ≤ j → j < i + 4 → m.rd8 j = n.rd8 j) :
    m.rd32 i = n.rd32 i := by
  unfold Memory.rd32
  rw [h i, h (i + 1), h (i + 2), h (i + 3)] <;> omega

/-- Equal bytes make equal byte lists. -/
theorem Memory.bytes_congr {m n : Memory} {i len : Nat} (h : ∀ j, i ≤ j → j < i + len → m.rd8 j = n.rd8 j) :
    m.bytes i len = n.bytes i len := by
  unfold Memory.bytes
  refine List.map_congr_left fun k hk => h _ (by omega) ?_
  have := List.mem_range.1 hk
  omega

/-- A word from its four bytes. -/
theorem word_of_bytes (v : Word) :
    (v.extractLsb' 24 8 ++ v.extractLsb' 16 8 ++ v.extractLsb' 8 8 ++ v.extractLsb' 0 8 : Word) = v := by
  apply BitVec.eq_of_getLsbD_eq
  intro k hk
  simp only [BitVec.getLsbD_append, BitVec.getLsbD_extractLsb']
  by_cases h0 : k < 8
  · simp [h0]
  · by_cases h1 : k < 16
    · have e : 8 + (k - 8) = k := by omega
      have : k - 8 < 8 := by omega
      simp [h0, this, e]
    · by_cases h2 : k < 24
      · have e : 16 + (k - 8 - 8) = k := by omega
        have a : ¬ k - 8 < 8 := by omega
        have b : k - 8 - 8 < 8 := by omega
        simp [h0, a, b, e]
      · have e : 24 + (k - 8 - 8 - 8) = k := by omega
        have a : ¬ k - 8 < 8 := by omega
        have b : ¬ k - 8 - 8 < 8 := by omega
        have c : k - 8 - 8 - 8 < 8 := by omega
        simp [h0, a, b, c, e]

/-- A word read back where it was written. -/
theorem Memory.rd32_wr32 {m : Memory} (h : m.wf) {i : Nat} (hi : i + 4 ≤ 3816) (v : Word) :
    (m.wr32 i v).rd32 i = v := by
  unfold Memory.rd32
  simp only [Memory.rd8_wr32 h hi]
  simpa using word_of_bytes v

/-- Canonical stores with equal bytes are equal. -/
theorem Memory.ext_of_wf {m n : Memory} (hm : m.wf) (hn : n.wf) (h : ∀ j, m.rd8 j = n.rd8 j) : m = n := by
  have main : ∀ l k : List Host.Cell, l.Pairwise (fun x y => x.1 < y.1) → k.Pairwise (fun x y => x.1 < y.1) →
      (∀ c ∈ l, c.2 ≠ Memory.unlisted) → (∀ c ∈ k, c.2 ≠ Memory.unlisted) →
      (∀ j, lookupCell j l = lookupCell j k) → l = k := by
    intro l
    induction l with
    | nil =>
      intro k _ _ _ hk e
      cases k with
      | nil => rfl
      | cons c rest =>
        have := e c.1
        simp only [lookupCell, if_true] at this
        exact absurd this.symm (hk c (by simp))
    | cons c l ih =>
      intro k hl hk hlv hkv e
      cases k with
      | nil =>
        have := e c.1
        simp only [lookupCell, if_true] at this
        exact absurd this (hlv c (by simp))
      | cons d k =>
        have hcl := (List.pairwise_cons.1 hl).1
        have hdk := (List.pairwise_cons.1 hk).1
        have hidx : c.1 = d.1 := by
          rcases Nat.lt_trichotomy c.1 d.1 with hlt | heq | hgt
          · have h1 := e c.1
            rw [lookupCell_above (l := d :: k) (by
              intro x hx
              rcases List.mem_cons.1 hx with rfl | hx
              · exact hlt
              · exact Nat.lt_trans hlt (hdk x hx))] at h1
            simp only [lookupCell, if_true] at h1
            exact absurd h1 (hlv c (by simp))
          · exact heq
          · have h1 := e d.1
            rw [lookupCell_above (l := c :: l) (by
              intro x hx
              rcases List.mem_cons.1 hx with rfl | hx
              · exact hgt
              · exact Nat.lt_trans hgt (hcl x hx))] at h1
            simp only [lookupCell, if_true] at h1
            exact absurd h1.symm (hkv d (by simp))
        have hval : c.2 = d.2 := by
          have h1 := e c.1
          simpa [lookupCell, hidx] using h1
        have htail : l = k := by
          refine ih k (List.pairwise_cons.1 hl).2 (List.pairwise_cons.1 hk).2
            (fun x hx => hlv x (List.mem_cons_of_mem _ hx)) (fun x hx => hkv x (List.mem_cons_of_mem _ hx)) fun j => ?_
          by_cases hj : j = c.1
          · rw [hj, lookupCell_above hcl, lookupCell_above (hidx ▸ hdk)]
          · have h1 := e j
            simpa [lookupCell, hj, hidx ▸ hj] using h1
        rw [show c = d from Prod.ext hidx hval, htail]
  cases m
  cases n
  congr 1
  exact main _ _ hm.1 hn.1 (fun c hc => (hm.2 c hc).2) (fun c hc => (hn.2 c hc).2) h

/-! ## The stores the commands make -/

theorem wf_empty : (Memory.mk []).wf := ⟨List.Pairwise.nil, fun _ h => absurd h (by simp)⟩

theorem rd8_empty (j : Nat) : (Memory.mk []).rd8 j = 0 := rfl

theorem wf_emptyStore (p : Config.Params) : (emptyStore p).wf :=
  Memory.wf_wr32 (Memory.wf_wr8 (Memory.wf_wr32 wf_empty _ _) _ _) _ _

theorem wf_recounted {m : Memory} (h : m.wf) : m.recounted.wf := Memory.wf_wr8 h _ _

theorem wf_commitStore {m : Memory} (h : m.wf) (p : Fin 10) : (commitStore m p).wf :=
  wf_recounted (Memory.wf_wr8 (Memory.wf_wr8 h _ _) _ _)

theorem wf_deleteStore {m : Memory} (h : m.wf) (p : Fin 10) : (deleteStore m p).wf :=
  wf_recounted (Memory.wf_zero _ h _)

/-- The listed bytes of an image of n bytes: canonical, and inside it. -/
theorem image_canonical (image : Nat → Byte) (n : Nat) :
    (imageCells image n).Pairwise (fun x y => x.1 < y.1) ∧
      ∀ c ∈ imageCells image n, c.1 < n ∧ c.2 ≠ Memory.unlisted := by
  unfold imageCells
  refine ⟨?_, fun c hc => ?_⟩
  · refine List.Pairwise.filterMap _ ?_ (List.pairwise_lt_range (n := n))
    intro a b hab c hc d hd
    split at hc
    · exact absurd hc (by simp)
    · split at hd
      · exact absurd hd (by simp)
      · cases hc
        cases hd
        exact hab
  · obtain ⟨i, hi, h⟩ := List.mem_filterMap.1 hc
    split at h
    · exact absurd h (by simp)
    · rename_i hb
      cases h
      exact ⟨List.mem_range.1 hi, hb⟩

/-- The reset image is canonical, whatever its bytes. -/
theorem wf_powerOnStore : powerOnStore.wf := by
  have e : powerOnStore.cells = imageCells Config.powerOnByte Config.storeBytes := by
    unfold powerOnStore
    with_reducible rfl
  unfold Memory.wf
  rw [e]
  with_reducible exact image_canonical Config.powerOnByte Config.storeBytes

/-- The open parameters lie in the ranges of 00_scope.md R8. -/
theorem params_wf : Config.params.wf := by
  have h1 := Config.openHalfFrames.isLt
  have h2 := Config.openVolDbBelow.isLt
  have h3 := Config.openVolDbAbove.isLt
  have hpre : Config.openPrebuf % (Config.srcCap - Config.frameBytes * Config.halfFrames + 1) < _ :=
    Nat.mod_lt Config.openPrebuf (Nat.succ_pos (Config.srcCap - Config.frameBytes * Config.halfFrames))
  have hcap : Config.srcCap = 2 * (Config.frameBytes * Config.halfFrames) + Config.openSrcRoom := rfl
  have hhf : Config.halfFrames = Config.openHalfFrames.val + 1 := rfl
  refine ⟨⟨?_, ?_⟩, ⟨?_, ?_⟩, ?_, ⟨?_, ?_⟩, ⟨?_, ?_⟩, ?_, ?_, ?_, ?_, ?_, ?_⟩
  · simp only [Config.params]; omega
  · simp only [Config.params]; omega
  · simp only [Config.params, Config.Params.halfBytes]; omega
  · simp only [Config.params]; omega
  · simp only [Config.params, Config.Params.halfBytes]; omega
  · simp only [Config.params]; omega
  · simp only [Config.params]; omega
  · simp only [Config.params]; omega
  · simp only [Config.params]; omega
  · simp only [Config.params, List.length_map, List.length_range]; omega
  · intro v hv
    obtain ⟨k, -, rfl⟩ := List.mem_map.1 hv
    exact Nat.lt_succ_iff.1 (Config.openVolCurve k).isLt
  · intro t
    simp only [Config.params, Vector.get_ofFn]
    exact Nat.lt_succ_iff.1 (Config.openHeadroom t).isLt
  · exact Nat.le_refl 16
  · exact (by decide : 16 ≤ 3816)
  · exact Nat.le_refl 3816

end Sys2Proof.Machine
end

