-- ==== Sys2Proof/Laws/Crc.lean ====
section
/-! SUPPORT. The CRC loop in its plain form (42_crc32.md R200). -/

namespace Sys2Proof.Machine

open Sys2Proof

/-- n bit steps as an iteration of `crcBit`. -/
theorem crcBits_eq (n : Nat) (c : Word) (next : Word → Word) : crcBits n c next = next (crcBit^[n] c) := by
  induction n generalizing c with
  | zero => rfl
  | succ n ih =>
    unfold crcBits
    rw [Function.iterate_succ_apply]
    unfold crcBit
    split <;> exact ih _

/-- One byte of R200. -/
def crcByte (c : Word) (d : Byte) : Word := crcBit^[8] (c ^^^ d.zeroExtend 32)

/-- The byte loop is a fold. -/
theorem crcBytes_eq_foldl (d : List Byte) (c : Word) : crcBytes d c = d.foldl crcByte c := by
  induction d generalizing c with
  | nil => rfl
  | cons b rest ih =>
    unfold crcBytes
    rw [crcBits_eq, ih]
    rfl

/-- The loop over two lists is the loop over the second from where the first ended. -/
theorem crcBytes_append (d e : List Byte) (c : Word) : crcBytes (d ++ e) c = crcBytes e (crcBytes d c) := by
  simp [crcBytes_eq_foldl]

/-- `crc32` of no bytes is 0 (R200). -/
theorem crc32_nil : crc32 [] = 0 := by decide

/-- The checksum depends on the bytes of the checked region only. -/
theorem regionCrc_congr {p : Config.Params} {m n : Memory}
    (h : ∀ j, p.crcLo ≤ j → j < p.crcHi → m.rd8 j = n.rd8 j) : regionCrc p m = regionCrc p n := by
  unfold regionCrc
  rw [Memory.bytes_congr fun j hj hj' => h j hj (by omega)]

end Sys2Proof.Machine
end

