-- ==== Sys2Proof/Laws/State.lean ====
section
/-! SUPPORT. What each named update of the state does to each field: one lemma per field per update, so that no proof
unfolds a record update. -/

namespace Sys2Proof.Machine

open Sys2Proof

variable (s : State)

/-! ## `reject` -/

@[simp] theorem State.reject_pipe : (s.reject).pipe = s.pipe := rfl
@[simp] theorem State.reject_nf0 : (s.reject).nf0 = s.nf0 := rfl
@[simp] theorem State.reject_nf1 : (s.reject).nf1 = s.nf1 := rfl
@[simp] theorem State.reject_dmaRun : (s.reject).dmaRun = s.dmaRun := rfl
@[simp] theorem State.reject_ampEn : (s.reject).ampEn = s.ampEn := rfl
@[simp] theorem State.reject_outMute : (s.reject).outMute = s.outMute := rfl
@[simp] theorem State.reject_storeValid : (s.reject).storeValid = s.storeValid := rfl
@[simp] theorem State.reject_reason : (s.reject).reason = s.reason := rfl
@[simp] theorem State.reject_cmdErr : (s.reject).cmdErr = true := rfl
@[simp] theorem State.reject_late : (s.reject).late = s.late := rfl
@[simp] theorem State.reject_lastFill : (s.reject).lastFill = s.lastFill := rfl
@[simp] theorem State.reject_swapLr : (s.reject).swapLr = s.swapLr := rfl
@[simp] theorem State.reject_pwrTier : (s.reject).pwrTier = s.pwrTier := rfl
@[simp] theorem State.reject_hostMute : (s.reject).hostMute = s.hostMute := rfl
@[simp] theorem State.reject_localMute : (s.reject).localMute = s.localMute := rfl
@[simp] theorem State.reject_irqEn : (s.reject).irqEn = s.irqEn := rfl
@[simp] theorem State.reject_hostVol : (s.reject).hostVol = s.hostVol := rfl
@[simp] theorem State.reject_localAtt : (s.reject).localAtt = s.localAtt := rfl
@[simp] theorem State.reject_volScale : (s.reject).volScale = s.volScale := rfl
@[simp] theorem State.reject_active : (s.reject).active = s.active := rfl
@[simp] theorem State.reject_crcResult : (s.reject).crcResult = s.crcResult := rfl
@[simp] theorem State.reject_fullCnt : (s.reject).fullCnt = s.fullCnt := rfl
@[simp] theorem State.reject_partCnt : (s.reject).partCnt = s.partCnt := rfl
@[simp] theorem State.reject_holdCnt : (s.reject).holdCnt = s.holdCnt := rfl
@[simp] theorem State.reject_heldL : (s.reject).heldL = s.heldL := rfl
@[simp] theorem State.reject_heldR : (s.reject).heldR = s.heldR := rfl
@[simp] theorem State.reject_dmaPos : (s.reject).dmaPos = s.dmaPos := rfl
@[simp] theorem State.reject_bqs : (s.reject).bqs = s.bqs := rfl
@[simp] theorem State.reject_store : (s.reject).store = s.store := rfl
@[simp] theorem State.reject_buf : (s.reject).buf = s.buf := rfl
@[simp] theorem State.reject_work : (s.reject).work = s.work := rfl
@[simp] theorem State.reject_fifo : (s.reject).fifo = s.fifo := rfl
@[simp] theorem State.reject_leg : (s.reject).leg = s.leg := rfl
@[simp] theorem State.reject_out : (s.reject).out = s.out := rfl
@[simp] theorem State.reject_params : (s.reject).params = s.params := rfl
@[simp] theorem State.reject_inputs : (s.reject).inputs = s.inputs := rfl
@[simp] theorem State.reject_drawn : (s.reject).drawn = s.drawn := rfl
@[simp] theorem State.reject_cascadeFrames : (s.reject).cascadeFrames = s.cascadeFrames := rfl
@[simp] theorem State.reject_reply : (s.reject).reply = s.reply := rfl

/-! ## `clearBqs` -/

@[simp] theorem State.clearBqs_pipe : (s.clearBqs).pipe = s.pipe := rfl
@[simp] theorem State.clearBqs_nf0 : (s.clearBqs).nf0 = s.nf0 := rfl
@[simp] theorem State.clearBqs_nf1 : (s.clearBqs).nf1 = s.nf1 := rfl
@[simp] theorem State.clearBqs_dmaRun : (s.clearBqs).dmaRun = s.dmaRun := rfl
@[simp] theorem State.clearBqs_ampEn : (s.clearBqs).ampEn = s.ampEn := rfl
@[simp] theorem State.clearBqs_outMute : (s.clearBqs).outMute = s.outMute := rfl
@[simp] theorem State.clearBqs_storeValid : (s.clearBqs).storeValid = s.storeValid := rfl
@[simp] theorem State.clearBqs_reason : (s.clearBqs).reason = s.reason := rfl
@[simp] theorem State.clearBqs_cmdErr : (s.clearBqs).cmdErr = s.cmdErr := rfl
@[simp] theorem State.clearBqs_late : (s.clearBqs).late = s.late := rfl
@[simp] theorem State.clearBqs_lastFill : (s.clearBqs).lastFill = s.lastFill := rfl
@[simp] theorem State.clearBqs_swapLr : (s.clearBqs).swapLr = s.swapLr := rfl
@[simp] theorem State.clearBqs_pwrTier : (s.clearBqs).pwrTier = s.pwrTier := rfl
@[simp] theorem State.clearBqs_hostMute : (s.clearBqs).hostMute = s.hostMute := rfl
@[simp] theorem State.clearBqs_localMute : (s.clearBqs).localMute = s.localMute := rfl
@[simp] theorem State.clearBqs_irqEn : (s.clearBqs).irqEn = s.irqEn := rfl
@[simp] theorem State.clearBqs_hostVol : (s.clearBqs).hostVol = s.hostVol := rfl
@[simp] theorem State.clearBqs_localAtt : (s.clearBqs).localAtt = s.localAtt := rfl
@[simp] theorem State.clearBqs_volScale : (s.clearBqs).volScale = s.volScale := rfl
@[simp] theorem State.clearBqs_active : (s.clearBqs).active = s.active := rfl
@[simp] theorem State.clearBqs_crcResult : (s.clearBqs).crcResult = s.crcResult := rfl
@[simp] theorem State.clearBqs_fullCnt : (s.clearBqs).fullCnt = s.fullCnt := rfl
@[simp] theorem State.clearBqs_partCnt : (s.clearBqs).partCnt = s.partCnt := rfl
@[simp] theorem State.clearBqs_holdCnt : (s.clearBqs).holdCnt = s.holdCnt := rfl
@[simp] theorem State.clearBqs_heldL : (s.clearBqs).heldL = s.heldL := rfl
@[simp] theorem State.clearBqs_heldR : (s.clearBqs).heldR = s.heldR := rfl
@[simp] theorem State.clearBqs_dmaPos : (s.clearBqs).dmaPos = s.dmaPos := rfl
@[simp] theorem State.clearBqs_bqs : (s.clearBqs).bqs = zeroBqs := rfl
@[simp] theorem State.clearBqs_store : (s.clearBqs).store = s.store := rfl
@[simp] theorem State.clearBqs_buf : (s.clearBqs).buf = s.buf := rfl
@[simp] theorem State.clearBqs_work : (s.clearBqs).work = s.work := rfl
@[simp] theorem State.clearBqs_fifo : (s.clearBqs).fifo = s.fifo := rfl
@[simp] theorem State.clearBqs_leg : (s.clearBqs).leg = s.leg := rfl
@[simp] theorem State.clearBqs_out : (s.clearBqs).out = s.out := rfl
@[simp] theorem State.clearBqs_params : (s.clearBqs).params = s.params := rfl
@[simp] theorem State.clearBqs_inputs : (s.clearBqs).inputs = s.inputs := rfl
@[simp] theorem State.clearBqs_drawn : (s.clearBqs).drawn = s.drawn := rfl
@[simp] theorem State.clearBqs_cascadeFrames : (s.clearBqs).cascadeFrames = s.cascadeFrames := rfl
@[simp] theorem State.clearBqs_reply : (s.clearBqs).reply = s.reply := rfl

/-! ## `silence` -/

@[simp] theorem State.silence_pipe : (s.silence).pipe = s.pipe := rfl
@[simp] theorem State.silence_nf0 : (s.silence).nf0 = s.nf0 := rfl
@[simp] theorem State.silence_nf1 : (s.silence).nf1 = s.nf1 := rfl
@[simp] theorem State.silence_dmaRun : (s.silence).dmaRun = s.dmaRun := rfl
@[simp] theorem State.silence_ampEn : (s.silence).ampEn = s.ampEn := rfl
@[simp] theorem State.silence_outMute : (s.silence).outMute = s.outMute := rfl
@[simp] theorem State.silence_storeValid : (s.silence).storeValid = s.storeValid := rfl
@[simp] theorem State.silence_reason : (s.silence).reason = s.reason := rfl
@[simp] theorem State.silence_cmdErr : (s.silence).cmdErr = s.cmdErr := rfl
@[simp] theorem State.silence_late : (s.silence).late = s.late := rfl
@[simp] theorem State.silence_lastFill : (s.silence).lastFill = s.lastFill := rfl
@[simp] theorem State.silence_swapLr : (s.silence).swapLr = s.swapLr := rfl
@[simp] theorem State.silence_pwrTier : (s.silence).pwrTier = s.pwrTier := rfl
@[simp] theorem State.silence_hostMute : (s.silence).hostMute = s.hostMute := rfl
@[simp] theorem State.silence_localMute : (s.silence).localMute = s.localMute := rfl
@[simp] theorem State.silence_irqEn : (s.silence).irqEn = s.irqEn := rfl
@[simp] theorem State.silence_hostVol : (s.silence).hostVol = s.hostVol := rfl
@[simp] theorem State.silence_localAtt : (s.silence).localAtt = s.localAtt := rfl
@[simp] theorem State.silence_volScale : (s.silence).volScale = s.volScale := rfl
@[simp] theorem State.silence_active : (s.silence).active = s.active := rfl
@[simp] theorem State.silence_crcResult : (s.silence).crcResult = s.crcResult := rfl
@[simp] theorem State.silence_fullCnt : (s.silence).fullCnt = s.fullCnt := rfl
@[simp] theorem State.silence_partCnt : (s.silence).partCnt = s.partCnt := rfl
@[simp] theorem State.silence_holdCnt : (s.silence).holdCnt = s.holdCnt := rfl
@[simp] theorem State.silence_heldL : (s.silence).heldL = s.heldL := rfl
@[simp] theorem State.silence_heldR : (s.silence).heldR = s.heldR := rfl
@[simp] theorem State.silence_dmaPos : (s.silence).dmaPos = s.dmaPos := rfl
@[simp] theorem State.silence_bqs : (s.silence).bqs = s.bqs := rfl
@[simp] theorem State.silence_store : (s.silence).store = s.store := rfl
@[simp] theorem State.silence_buf : (s.silence).buf = List.replicate (4 * s.params.halfFrames) 0 := rfl
@[simp] theorem State.silence_work : (s.silence).work = s.work := rfl
@[simp] theorem State.silence_fifo : (s.silence).fifo = s.fifo := rfl
@[simp] theorem State.silence_leg : (s.silence).leg = s.leg := rfl
@[simp] theorem State.silence_out : (s.silence).out = s.out := rfl
@[simp] theorem State.silence_params : (s.silence).params = s.params := rfl
@[simp] theorem State.silence_inputs : (s.silence).inputs = s.inputs := rfl
@[simp] theorem State.silence_drawn : (s.silence).drawn = s.drawn := rfl
@[simp] theorem State.silence_cascadeFrames : (s.silence).cascadeFrames = s.cascadeFrames := rfl
@[simp] theorem State.silence_reply : (s.silence).reply = s.reply := rfl

/-! ## `dmaRestart` -/

@[simp] theorem State.dmaRestart_pipe : (s.dmaRestart).pipe = s.pipe := rfl
@[simp] theorem State.dmaRestart_nf0 : (s.dmaRestart).nf0 = false := rfl
@[simp] theorem State.dmaRestart_nf1 : (s.dmaRestart).nf1 = false := rfl
@[simp] theorem State.dmaRestart_dmaRun : (s.dmaRestart).dmaRun = true := rfl
@[simp] theorem State.dmaRestart_ampEn : (s.dmaRestart).ampEn = s.ampEn := rfl
@[simp] theorem State.dmaRestart_outMute : (s.dmaRestart).outMute = s.outMute := rfl
@[simp] theorem State.dmaRestart_storeValid : (s.dmaRestart).storeValid = s.storeValid := rfl
@[simp] theorem State.dmaRestart_reason : (s.dmaRestart).reason = s.reason := rfl
@[simp] theorem State.dmaRestart_cmdErr : (s.dmaRestart).cmdErr = s.cmdErr := rfl
@[simp] theorem State.dmaRestart_late : (s.dmaRestart).late = s.late := rfl
@[simp] theorem State.dmaRestart_lastFill : (s.dmaRestart).lastFill = s.lastFill := rfl
@[simp] theorem State.dmaRestart_swapLr : (s.dmaRestart).swapLr = s.swapLr := rfl
@[simp] theorem State.dmaRestart_pwrTier : (s.dmaRestart).pwrTier = s.pwrTier := rfl
@[simp] theorem State.dmaRestart_hostMute : (s.dmaRestart).hostMute = s.hostMute := rfl
@[simp] theorem State.dmaRestart_localMute : (s.dmaRestart).localMute = s.localMute := rfl
@[simp] theorem State.dmaRestart_irqEn : (s.dmaRestart).irqEn = s.irqEn := rfl
@[simp] theorem State.dmaRestart_hostVol : (s.dmaRestart).hostVol = s.hostVol := rfl
@[simp] theorem State.dmaRestart_localAtt : (s.dmaRestart).localAtt = s.localAtt := rfl
@[simp] theorem State.dmaRestart_volScale : (s.dmaRestart).volScale = s.volScale := rfl
@[simp] theorem State.dmaRestart_active : (s.dmaRestart).active = s.active := rfl
@[simp] theorem State.dmaRestart_crcResult : (s.dmaRestart).crcResult = s.crcResult := rfl
@[simp] theorem State.dmaRestart_fullCnt : (s.dmaRestart).fullCnt = s.fullCnt := rfl
@[simp] theorem State.dmaRestart_partCnt : (s.dmaRestart).partCnt = s.partCnt := rfl
@[simp] theorem State.dmaRestart_holdCnt : (s.dmaRestart).holdCnt = s.holdCnt := rfl
@[simp] theorem State.dmaRestart_heldL : (s.dmaRestart).heldL = s.heldL := rfl
@[simp] theorem State.dmaRestart_heldR : (s.dmaRestart).heldR = s.heldR := rfl
@[simp] theorem State.dmaRestart_dmaPos : (s.dmaRestart).dmaPos = 0 := rfl
@[simp] theorem State.dmaRestart_bqs : (s.dmaRestart).bqs = s.bqs := rfl
@[simp] theorem State.dmaRestart_store : (s.dmaRestart).store = s.store := rfl
@[simp] theorem State.dmaRestart_buf : (s.dmaRestart).buf = s.buf := rfl
@[simp] theorem State.dmaRestart_work : (s.dmaRestart).work = s.work := rfl
@[simp] theorem State.dmaRestart_fifo : (s.dmaRestart).fifo = s.fifo := rfl
@[simp] theorem State.dmaRestart_leg : (s.dmaRestart).leg = s.leg := rfl
@[simp] theorem State.dmaRestart_out : (s.dmaRestart).out = s.out := rfl
@[simp] theorem State.dmaRestart_params : (s.dmaRestart).params = s.params := rfl
@[simp] theorem State.dmaRestart_inputs : (s.dmaRestart).inputs = s.inputs := rfl
@[simp] theorem State.dmaRestart_drawn : (s.dmaRestart).drawn = s.drawn := rfl
@[simp] theorem State.dmaRestart_cascadeFrames : (s.dmaRestart).cascadeFrames = s.cascadeFrames := rfl
@[simp] theorem State.dmaRestart_reply : (s.dmaRestart).reply = s.reply := rfl

/-! ## `withStore` -/

@[simp] theorem State.withStore_pipe (m : Memory) : (s.withStore m).pipe = s.pipe := rfl
@[simp] theorem State.withStore_nf0 (m : Memory) : (s.withStore m).nf0 = s.nf0 := rfl
@[simp] theorem State.withStore_nf1 (m : Memory) : (s.withStore m).nf1 = s.nf1 := rfl
@[simp] theorem State.withStore_dmaRun (m : Memory) : (s.withStore m).dmaRun = s.dmaRun := rfl
@[simp] theorem State.withStore_ampEn (m : Memory) : (s.withStore m).ampEn = s.ampEn := rfl
@[simp] theorem State.withStore_outMute (m : Memory) : (s.withStore m).outMute = s.outMute := rfl
@[simp] theorem State.withStore_storeValid (m : Memory) : (s.withStore m).storeValid = s.storeValid := rfl
@[simp] theorem State.withStore_reason (m : Memory) : (s.withStore m).reason = s.reason := rfl
@[simp] theorem State.withStore_cmdErr (m : Memory) : (s.withStore m).cmdErr = s.cmdErr := rfl
@[simp] theorem State.withStore_late (m : Memory) : (s.withStore m).late = s.late := rfl
@[simp] theorem State.withStore_lastFill (m : Memory) : (s.withStore m).lastFill = s.lastFill := rfl
@[simp] theorem State.withStore_swapLr (m : Memory) : (s.withStore m).swapLr = s.swapLr := rfl
@[simp] theorem State.withStore_pwrTier (m : Memory) : (s.withStore m).pwrTier = s.pwrTier := rfl
@[simp] theorem State.withStore_hostMute (m : Memory) : (s.withStore m).hostMute = s.hostMute := rfl
@[simp] theorem State.withStore_localMute (m : Memory) : (s.withStore m).localMute = s.localMute := rfl
@[simp] theorem State.withStore_irqEn (m : Memory) : (s.withStore m).irqEn = s.irqEn := rfl
@[simp] theorem State.withStore_hostVol (m : Memory) : (s.withStore m).hostVol = s.hostVol := rfl
@[simp] theorem State.withStore_localAtt (m : Memory) : (s.withStore m).localAtt = s.localAtt := rfl
@[simp] theorem State.withStore_volScale (m : Memory) : (s.withStore m).volScale = s.volScale := rfl
@[simp] theorem State.withStore_active (m : Memory) : (s.withStore m).active = s.active := rfl
@[simp] theorem State.withStore_crcResult (m : Memory) : (s.withStore m).crcResult = s.crcResult := rfl
@[simp] theorem State.withStore_fullCnt (m : Memory) : (s.withStore m).fullCnt = s.fullCnt := rfl
@[simp] theorem State.withStore_partCnt (m : Memory) : (s.withStore m).partCnt = s.partCnt := rfl
@[simp] theorem State.withStore_holdCnt (m : Memory) : (s.withStore m).holdCnt = s.holdCnt := rfl
@[simp] theorem State.withStore_heldL (m : Memory) : (s.withStore m).heldL = s.heldL := rfl
@[simp] theorem State.withStore_heldR (m : Memory) : (s.withStore m).heldR = s.heldR := rfl
@[simp] theorem State.withStore_dmaPos (m : Memory) : (s.withStore m).dmaPos = s.dmaPos := rfl
@[simp] theorem State.withStore_bqs (m : Memory) : (s.withStore m).bqs = s.bqs := rfl
@[simp] theorem State.withStore_store (m : Memory) : (s.withStore m).store = m := rfl
@[simp] theorem State.withStore_buf (m : Memory) : (s.withStore m).buf = s.buf := rfl
@[simp] theorem State.withStore_work (m : Memory) : (s.withStore m).work = s.work := rfl
@[simp] theorem State.withStore_fifo (m : Memory) : (s.withStore m).fifo = s.fifo := rfl
@[simp] theorem State.withStore_leg (m : Memory) : (s.withStore m).leg = s.leg := rfl
@[simp] theorem State.withStore_out (m : Memory) : (s.withStore m).out = s.out := rfl
@[simp] theorem State.withStore_params (m : Memory) : (s.withStore m).params = s.params := rfl
@[simp] theorem State.withStore_inputs (m : Memory) : (s.withStore m).inputs = s.inputs := rfl
@[simp] theorem State.withStore_drawn (m : Memory) : (s.withStore m).drawn = s.drawn := rfl
@[simp] theorem State.withStore_cascadeFrames (m : Memory) : (s.withStore m).cascadeFrames = s.cascadeFrames := rfl
@[simp] theorem State.withStore_reply (m : Memory) : (s.withStore m).reply = s.reply := rfl

/-! ## `withActive` -/

@[simp] theorem State.withActive_pipe (id : Option (Fin 10)) : (s.withActive id).pipe = s.pipe := rfl
@[simp] theorem State.withActive_nf0 (id : Option (Fin 10)) : (s.withActive id).nf0 = s.nf0 := rfl
@[simp] theorem State.withActive_nf1 (id : Option (Fin 10)) : (s.withActive id).nf1 = s.nf1 := rfl
@[simp] theorem State.withActive_dmaRun (id : Option (Fin 10)) : (s.withActive id).dmaRun = s.dmaRun := rfl
@[simp] theorem State.withActive_ampEn (id : Option (Fin 10)) : (s.withActive id).ampEn = s.ampEn := rfl
@[simp] theorem State.withActive_outMute (id : Option (Fin 10)) : (s.withActive id).outMute = s.outMute := rfl
@[simp] theorem State.withActive_storeValid (id : Option (Fin 10)) : (s.withActive id).storeValid = s.storeValid := rfl
@[simp] theorem State.withActive_reason (id : Option (Fin 10)) : (s.withActive id).reason = s.reason := rfl
@[simp] theorem State.withActive_cmdErr (id : Option (Fin 10)) : (s.withActive id).cmdErr = s.cmdErr := rfl
@[simp] theorem State.withActive_late (id : Option (Fin 10)) : (s.withActive id).late = s.late := rfl
@[simp] theorem State.withActive_lastFill (id : Option (Fin 10)) : (s.withActive id).lastFill = s.lastFill := rfl
@[simp] theorem State.withActive_swapLr (id : Option (Fin 10)) : (s.withActive id).swapLr = s.swapLr := rfl
@[simp] theorem State.withActive_pwrTier (id : Option (Fin 10)) : (s.withActive id).pwrTier = s.pwrTier := rfl
@[simp] theorem State.withActive_hostMute (id : Option (Fin 10)) : (s.withActive id).hostMute = s.hostMute := rfl
@[simp] theorem State.withActive_localMute (id : Option (Fin 10)) : (s.withActive id).localMute = s.localMute := rfl
@[simp] theorem State.withActive_irqEn (id : Option (Fin 10)) : (s.withActive id).irqEn = s.irqEn := rfl
@[simp] theorem State.withActive_hostVol (id : Option (Fin 10)) : (s.withActive id).hostVol = s.hostVol := rfl
@[simp] theorem State.withActive_localAtt (id : Option (Fin 10)) : (s.withActive id).localAtt = s.localAtt := rfl
@[simp] theorem State.withActive_volScale (id : Option (Fin 10)) : (s.withActive id).volScale = s.volScale := rfl
@[simp] theorem State.withActive_active (id : Option (Fin 10)) : (s.withActive id).active = id := rfl
@[simp] theorem State.withActive_crcResult (id : Option (Fin 10)) : (s.withActive id).crcResult = s.crcResult := rfl
@[simp] theorem State.withActive_fullCnt (id : Option (Fin 10)) : (s.withActive id).fullCnt = s.fullCnt := rfl
@[simp] theorem State.withActive_partCnt (id : Option (Fin 10)) : (s.withActive id).partCnt = s.partCnt := rfl
@[simp] theorem State.withActive_holdCnt (id : Option (Fin 10)) : (s.withActive id).holdCnt = s.holdCnt := rfl
@[simp] theorem State.withActive_heldL (id : Option (Fin 10)) : (s.withActive id).heldL = s.heldL := rfl
@[simp] theorem State.withActive_heldR (id : Option (Fin 10)) : (s.withActive id).heldR = s.heldR := rfl
@[simp] theorem State.withActive_dmaPos (id : Option (Fin 10)) : (s.withActive id).dmaPos = s.dmaPos := rfl
@[simp] theorem State.withActive_bqs (id : Option (Fin 10)) : (s.withActive id).bqs = s.bqs := rfl
@[simp] theorem State.withActive_store (id : Option (Fin 10)) : (s.withActive id).store = s.store := rfl
@[simp] theorem State.withActive_buf (id : Option (Fin 10)) : (s.withActive id).buf = s.buf := rfl
@[simp] theorem State.withActive_work (id : Option (Fin 10)) : (s.withActive id).work = s.work := rfl
@[simp] theorem State.withActive_fifo (id : Option (Fin 10)) : (s.withActive id).fifo = s.fifo := rfl
@[simp] theorem State.withActive_leg (id : Option (Fin 10)) : (s.withActive id).leg = s.leg := rfl
@[simp] theorem State.withActive_out (id : Option (Fin 10)) : (s.withActive id).out = s.out := rfl
@[simp] theorem State.withActive_params (id : Option (Fin 10)) : (s.withActive id).params = s.params := rfl
@[simp] theorem State.withActive_inputs (id : Option (Fin 10)) : (s.withActive id).inputs = s.inputs := rfl
@[simp] theorem State.withActive_drawn (id : Option (Fin 10)) : (s.withActive id).drawn = s.drawn := rfl
@[simp] theorem State.withActive_cascadeFrames (id : Option (Fin 10)) : (s.withActive id).cascadeFrames = s.cascadeFrames := rfl
@[simp] theorem State.withActive_reply (id : Option (Fin 10)) : (s.withActive id).reply = s.reply := rfl

/-! ## `latchVolume` -/

@[simp] theorem State.latchVolume_pipe : (s.latchVolume).pipe = s.pipe := rfl
@[simp] theorem State.latchVolume_nf0 : (s.latchVolume).nf0 = s.nf0 := rfl
@[simp] theorem State.latchVolume_nf1 : (s.latchVolume).nf1 = s.nf1 := rfl
@[simp] theorem State.latchVolume_dmaRun : (s.latchVolume).dmaRun = s.dmaRun := rfl
@[simp] theorem State.latchVolume_ampEn : (s.latchVolume).ampEn = s.ampEn := rfl
@[simp] theorem State.latchVolume_outMute : (s.latchVolume).outMute = s.outMute := rfl
@[simp] theorem State.latchVolume_storeValid : (s.latchVolume).storeValid = s.storeValid := rfl
@[simp] theorem State.latchVolume_reason : (s.latchVolume).reason = s.reason := rfl
@[simp] theorem State.latchVolume_cmdErr : (s.latchVolume).cmdErr = s.cmdErr := rfl
@[simp] theorem State.latchVolume_late : (s.latchVolume).late = s.late := rfl
@[simp] theorem State.latchVolume_lastFill : (s.latchVolume).lastFill = s.lastFill := rfl
@[simp] theorem State.latchVolume_swapLr : (s.latchVolume).swapLr = s.swapLr := rfl
@[simp] theorem State.latchVolume_pwrTier : (s.latchVolume).pwrTier = s.pwrTier := rfl
@[simp] theorem State.latchVolume_hostMute : (s.latchVolume).hostMute = s.hostMute := rfl
@[simp] theorem State.latchVolume_localMute : (s.latchVolume).localMute = s.localMute := rfl
@[simp] theorem State.latchVolume_irqEn : (s.latchVolume).irqEn = s.irqEn := rfl
@[simp] theorem State.latchVolume_hostVol : (s.latchVolume).hostVol = s.hostVol := rfl
@[simp] theorem State.latchVolume_localAtt : (s.latchVolume).localAtt = s.localAtt := rfl
@[simp] theorem State.latchVolume_volScale : (s.latchVolume).volScale = s.volscale := rfl
@[simp] theorem State.latchVolume_active : (s.latchVolume).active = s.active := rfl
@[simp] theorem State.latchVolume_crcResult : (s.latchVolume).crcResult = s.crcResult := rfl
@[simp] theorem State.latchVolume_fullCnt : (s.latchVolume).fullCnt = s.fullCnt := rfl
@[simp] theorem State.latchVolume_partCnt : (s.latchVolume).partCnt = s.partCnt := rfl
@[simp] theorem State.latchVolume_holdCnt : (s.latchVolume).holdCnt = s.holdCnt := rfl
@[simp] theorem State.latchVolume_heldL : (s.latchVolume).heldL = s.heldL := rfl
@[simp] theorem State.latchVolume_heldR : (s.latchVolume).heldR = s.heldR := rfl
@[simp] theorem State.latchVolume_dmaPos : (s.latchVolume).dmaPos = s.dmaPos := rfl
@[simp] theorem State.latchVolume_bqs : (s.latchVolume).bqs = s.bqs := rfl
@[simp] theorem State.latchVolume_store : (s.latchVolume).store = s.store := rfl
@[simp] theorem State.latchVolume_buf : (s.latchVolume).buf = s.buf := rfl
@[simp] theorem State.latchVolume_work : (s.latchVolume).work = s.work := rfl
@[simp] theorem State.latchVolume_fifo : (s.latchVolume).fifo = s.fifo := rfl
@[simp] theorem State.latchVolume_leg : (s.latchVolume).leg = s.leg := rfl
@[simp] theorem State.latchVolume_out : (s.latchVolume).out = s.out := rfl
@[simp] theorem State.latchVolume_params : (s.latchVolume).params = s.params := rfl
@[simp] theorem State.latchVolume_inputs : (s.latchVolume).inputs = s.inputs := rfl
@[simp] theorem State.latchVolume_drawn : (s.latchVolume).drawn = s.drawn := rfl
@[simp] theorem State.latchVolume_cascadeFrames : (s.latchVolume).cascadeFrames = s.cascadeFrames := rfl
@[simp] theorem State.latchVolume_reply : (s.latchVolume).reply = s.reply := rfl

/-! ## `captureHeld` -/

@[simp] theorem State.captureHeld_pipe (n : Nat) (ws : List Word) : (s.captureHeld n ws).pipe = s.pipe := rfl
@[simp] theorem State.captureHeld_nf0 (n : Nat) (ws : List Word) : (s.captureHeld n ws).nf0 = s.nf0 := rfl
@[simp] theorem State.captureHeld_nf1 (n : Nat) (ws : List Word) : (s.captureHeld n ws).nf1 = s.nf1 := rfl
@[simp] theorem State.captureHeld_dmaRun (n : Nat) (ws : List Word) : (s.captureHeld n ws).dmaRun = s.dmaRun := rfl
@[simp] theorem State.captureHeld_ampEn (n : Nat) (ws : List Word) : (s.captureHeld n ws).ampEn = s.ampEn := rfl
@[simp] theorem State.captureHeld_outMute (n : Nat) (ws : List Word) : (s.captureHeld n ws).outMute = s.outMute := rfl
@[simp] theorem State.captureHeld_storeValid (n : Nat) (ws : List Word) : (s.captureHeld n ws).storeValid = s.storeValid := rfl
@[simp] theorem State.captureHeld_reason (n : Nat) (ws : List Word) : (s.captureHeld n ws).reason = s.reason := rfl
@[simp] theorem State.captureHeld_cmdErr (n : Nat) (ws : List Word) : (s.captureHeld n ws).cmdErr = s.cmdErr := rfl
@[simp] theorem State.captureHeld_late (n : Nat) (ws : List Word) : (s.captureHeld n ws).late = s.late := rfl
@[simp] theorem State.captureHeld_lastFill (n : Nat) (ws : List Word) : (s.captureHeld n ws).lastFill = s.lastFill := rfl
@[simp] theorem State.captureHeld_swapLr (n : Nat) (ws : List Word) : (s.captureHeld n ws).swapLr = s.swapLr := rfl
@[simp] theorem State.captureHeld_pwrTier (n : Nat) (ws : List Word) : (s.captureHeld n ws).pwrTier = s.pwrTier := rfl
@[simp] theorem State.captureHeld_hostMute (n : Nat) (ws : List Word) : (s.captureHeld n ws).hostMute = s.hostMute := rfl
@[simp] theorem State.captureHeld_localMute (n : Nat) (ws : List Word) : (s.captureHeld n ws).localMute = s.localMute := rfl
@[simp] theorem State.captureHeld_irqEn (n : Nat) (ws : List Word) : (s.captureHeld n ws).irqEn = s.irqEn := rfl
@[simp] theorem State.captureHeld_hostVol (n : Nat) (ws : List Word) : (s.captureHeld n ws).hostVol = s.hostVol := rfl
@[simp] theorem State.captureHeld_localAtt (n : Nat) (ws : List Word) : (s.captureHeld n ws).localAtt = s.localAtt := rfl
@[simp] theorem State.captureHeld_volScale (n : Nat) (ws : List Word) : (s.captureHeld n ws).volScale = s.volScale := rfl
@[simp] theorem State.captureHeld_active (n : Nat) (ws : List Word) : (s.captureHeld n ws).active = s.active := rfl
@[simp] theorem State.captureHeld_crcResult (n : Nat) (ws : List Word) : (s.captureHeld n ws).crcResult = s.crcResult := rfl
@[simp] theorem State.captureHeld_fullCnt (n : Nat) (ws : List Word) : (s.captureHeld n ws).fullCnt = s.fullCnt := rfl
@[simp] theorem State.captureHeld_partCnt (n : Nat) (ws : List Word) : (s.captureHeld n ws).partCnt = s.partCnt := rfl
@[simp] theorem State.captureHeld_holdCnt (n : Nat) (ws : List Word) : (s.captureHeld n ws).holdCnt = s.holdCnt := rfl
@[simp] theorem State.captureHeld_heldL (n : Nat) (ws : List Word) : (s.captureHeld n ws).heldL = ws.getD (2 * n - 2) 0 := rfl
@[simp] theorem State.captureHeld_heldR (n : Nat) (ws : List Word) : (s.captureHeld n ws).heldR = ws.getD (2 * n - 1) 0 := rfl
@[simp] theorem State.captureHeld_dmaPos (n : Nat) (ws : List Word) : (s.captureHeld n ws).dmaPos = s.dmaPos := rfl
@[simp] theorem State.captureHeld_bqs (n : Nat) (ws : List Word) : (s.captureHeld n ws).bqs = s.bqs := rfl
@[simp] theorem State.captureHeld_store (n : Nat) (ws : List Word) : (s.captureHeld n ws).store = s.store := rfl
@[simp] theorem State.captureHeld_buf (n : Nat) (ws : List Word) : (s.captureHeld n ws).buf = s.buf := rfl
@[simp] theorem State.captureHeld_work (n : Nat) (ws : List Word) : (s.captureHeld n ws).work = s.work := rfl
@[simp] theorem State.captureHeld_fifo (n : Nat) (ws : List Word) : (s.captureHeld n ws).fifo = s.fifo := rfl
@[simp] theorem State.captureHeld_leg (n : Nat) (ws : List Word) : (s.captureHeld n ws).leg = s.leg := rfl
@[simp] theorem State.captureHeld_out (n : Nat) (ws : List Word) : (s.captureHeld n ws).out = s.out := rfl
@[simp] theorem State.captureHeld_params (n : Nat) (ws : List Word) : (s.captureHeld n ws).params = s.params := rfl
@[simp] theorem State.captureHeld_inputs (n : Nat) (ws : List Word) : (s.captureHeld n ws).inputs = s.inputs := rfl
@[simp] theorem State.captureHeld_drawn (n : Nat) (ws : List Word) : (s.captureHeld n ws).drawn = s.drawn := rfl
@[simp] theorem State.captureHeld_cascadeFrames (n : Nat) (ws : List Word) : (s.captureHeld n ws).cascadeFrames = s.cascadeFrames := rfl
@[simp] theorem State.captureHeld_reply (n : Nat) (ws : List Word) : (s.captureHeld n ws).reply = s.reply := rfl

/-! ## `withHalf` -/

@[simp] theorem State.withHalf_pipe (h : Fin 2) (ws : List Word) : (s.withHalf h ws).pipe = s.pipe := rfl
@[simp] theorem State.withHalf_nf0 (h : Fin 2) (ws : List Word) : (s.withHalf h ws).nf0 = s.nf0 := rfl
@[simp] theorem State.withHalf_nf1 (h : Fin 2) (ws : List Word) : (s.withHalf h ws).nf1 = s.nf1 := rfl
@[simp] theorem State.withHalf_dmaRun (h : Fin 2) (ws : List Word) : (s.withHalf h ws).dmaRun = s.dmaRun := rfl
@[simp] theorem State.withHalf_ampEn (h : Fin 2) (ws : List Word) : (s.withHalf h ws).ampEn = s.ampEn := rfl
@[simp] theorem State.withHalf_outMute (h : Fin 2) (ws : List Word) : (s.withHalf h ws).outMute = s.outMute := rfl
@[simp] theorem State.withHalf_storeValid (h : Fin 2) (ws : List Word) : (s.withHalf h ws).storeValid = s.storeValid := rfl
@[simp] theorem State.withHalf_reason (h : Fin 2) (ws : List Word) : (s.withHalf h ws).reason = s.reason := rfl
@[simp] theorem State.withHalf_cmdErr (h : Fin 2) (ws : List Word) : (s.withHalf h ws).cmdErr = s.cmdErr := rfl
@[simp] theorem State.withHalf_late (h : Fin 2) (ws : List Word) : (s.withHalf h ws).late = s.late := rfl
@[simp] theorem State.withHalf_lastFill (h : Fin 2) (ws : List Word) : (s.withHalf h ws).lastFill = s.lastFill := rfl
@[simp] theorem State.withHalf_swapLr (h : Fin 2) (ws : List Word) : (s.withHalf h ws).swapLr = s.swapLr := rfl
@[simp] theorem State.withHalf_pwrTier (h : Fin 2) (ws : List Word) : (s.withHalf h ws).pwrTier = s.pwrTier := rfl
@[simp] theorem State.withHalf_hostMute (h : Fin 2) (ws : List Word) : (s.withHalf h ws).hostMute = s.hostMute := rfl
@[simp] theorem State.withHalf_localMute (h : Fin 2) (ws : List Word) : (s.withHalf h ws).localMute = s.localMute := rfl
@[simp] theorem State.withHalf_irqEn (h : Fin 2) (ws : List Word) : (s.withHalf h ws).irqEn = s.irqEn := rfl
@[simp] theorem State.withHalf_hostVol (h : Fin 2) (ws : List Word) : (s.withHalf h ws).hostVol = s.hostVol := rfl
@[simp] theorem State.withHalf_localAtt (h : Fin 2) (ws : List Word) : (s.withHalf h ws).localAtt = s.localAtt := rfl
@[simp] theorem State.withHalf_volScale (h : Fin 2) (ws : List Word) : (s.withHalf h ws).volScale = s.volScale := rfl
@[simp] theorem State.withHalf_active (h : Fin 2) (ws : List Word) : (s.withHalf h ws).active = s.active := rfl
@[simp] theorem State.withHalf_crcResult (h : Fin 2) (ws : List Word) : (s.withHalf h ws).crcResult = s.crcResult := rfl
@[simp] theorem State.withHalf_fullCnt (h : Fin 2) (ws : List Word) : (s.withHalf h ws).fullCnt = s.fullCnt := rfl
@[simp] theorem State.withHalf_partCnt (h : Fin 2) (ws : List Word) : (s.withHalf h ws).partCnt = s.partCnt := rfl
@[simp] theorem State.withHalf_holdCnt (h : Fin 2) (ws : List Word) : (s.withHalf h ws).holdCnt = s.holdCnt := rfl
@[simp] theorem State.withHalf_heldL (h : Fin 2) (ws : List Word) : (s.withHalf h ws).heldL = s.heldL := rfl
@[simp] theorem State.withHalf_heldR (h : Fin 2) (ws : List Word) : (s.withHalf h ws).heldR = s.heldR := rfl
@[simp] theorem State.withHalf_dmaPos (h : Fin 2) (ws : List Word) : (s.withHalf h ws).dmaPos = s.dmaPos := rfl
@[simp] theorem State.withHalf_bqs (h : Fin 2) (ws : List Word) : (s.withHalf h ws).bqs = s.bqs := rfl
@[simp] theorem State.withHalf_store (h : Fin 2) (ws : List Word) : (s.withHalf h ws).store = s.store := rfl
@[simp] theorem State.withHalf_buf (h : Fin 2) (ws : List Word) : (s.withHalf h ws).buf = writeHalf s.params.halfFrames h ws s.buf := rfl
@[simp] theorem State.withHalf_work (h : Fin 2) (ws : List Word) : (s.withHalf h ws).work = s.work := rfl
@[simp] theorem State.withHalf_fifo (h : Fin 2) (ws : List Word) : (s.withHalf h ws).fifo = s.fifo := rfl
@[simp] theorem State.withHalf_leg (h : Fin 2) (ws : List Word) : (s.withHalf h ws).leg = s.leg := rfl
@[simp] theorem State.withHalf_out (h : Fin 2) (ws : List Word) : (s.withHalf h ws).out = s.out := rfl
@[simp] theorem State.withHalf_params (h : Fin 2) (ws : List Word) : (s.withHalf h ws).params = s.params := rfl
@[simp] theorem State.withHalf_inputs (h : Fin 2) (ws : List Word) : (s.withHalf h ws).inputs = s.inputs := rfl
@[simp] theorem State.withHalf_drawn (h : Fin 2) (ws : List Word) : (s.withHalf h ws).drawn = s.drawn := rfl
@[simp] theorem State.withHalf_cascadeFrames (h : Fin 2) (ws : List Word) : (s.withHalf h ws).cascadeFrames = s.cascadeFrames := rfl
@[simp] theorem State.withHalf_reply (h : Fin 2) (ws : List Word) : (s.withHalf h ws).reply = s.reply := rfl

/-! ## `replied` -/

@[simp] theorem State.replied_pipe (r : Reply) : (s.replied r).pipe = s.pipe := rfl
@[simp] theorem State.replied_nf0 (r : Reply) : (s.replied r).nf0 = s.nf0 := rfl
@[simp] theorem State.replied_nf1 (r : Reply) : (s.replied r).nf1 = s.nf1 := rfl
@[simp] theorem State.replied_dmaRun (r : Reply) : (s.replied r).dmaRun = s.dmaRun := rfl
@[simp] theorem State.replied_ampEn (r : Reply) : (s.replied r).ampEn = s.ampEn := rfl
@[simp] theorem State.replied_outMute (r : Reply) : (s.replied r).outMute = s.outMute := rfl
@[simp] theorem State.replied_storeValid (r : Reply) : (s.replied r).storeValid = s.storeValid := rfl
@[simp] theorem State.replied_reason (r : Reply) : (s.replied r).reason = s.reason := rfl
@[simp] theorem State.replied_cmdErr (r : Reply) : (s.replied r).cmdErr = s.cmdErr := rfl
@[simp] theorem State.replied_late (r : Reply) : (s.replied r).late = s.late := rfl
@[simp] theorem State.replied_lastFill (r : Reply) : (s.replied r).lastFill = s.lastFill := rfl
@[simp] theorem State.replied_swapLr (r : Reply) : (s.replied r).swapLr = s.swapLr := rfl
@[simp] theorem State.replied_pwrTier (r : Reply) : (s.replied r).pwrTier = s.pwrTier := rfl
@[simp] theorem State.replied_hostMute (r : Reply) : (s.replied r).hostMute = s.hostMute := rfl
@[simp] theorem State.replied_localMute (r : Reply) : (s.replied r).localMute = s.localMute := rfl
@[simp] theorem State.replied_irqEn (r : Reply) : (s.replied r).irqEn = s.irqEn := rfl
@[simp] theorem State.replied_hostVol (r : Reply) : (s.replied r).hostVol = s.hostVol := rfl
@[simp] theorem State.replied_localAtt (r : Reply) : (s.replied r).localAtt = s.localAtt := rfl
@[simp] theorem State.replied_volScale (r : Reply) : (s.replied r).volScale = s.volScale := rfl
@[simp] theorem State.replied_active (r : Reply) : (s.replied r).active = s.active := rfl
@[simp] theorem State.replied_crcResult (r : Reply) : (s.replied r).crcResult = s.crcResult := rfl
@[simp] theorem State.replied_fullCnt (r : Reply) : (s.replied r).fullCnt = s.fullCnt := rfl
@[simp] theorem State.replied_partCnt (r : Reply) : (s.replied r).partCnt = s.partCnt := rfl
@[simp] theorem State.replied_holdCnt (r : Reply) : (s.replied r).holdCnt = s.holdCnt := rfl
@[simp] theorem State.replied_heldL (r : Reply) : (s.replied r).heldL = s.heldL := rfl
@[simp] theorem State.replied_heldR (r : Reply) : (s.replied r).heldR = s.heldR := rfl
@[simp] theorem State.replied_dmaPos (r : Reply) : (s.replied r).dmaPos = s.dmaPos := rfl
@[simp] theorem State.replied_bqs (r : Reply) : (s.replied r).bqs = s.bqs := rfl
@[simp] theorem State.replied_store (r : Reply) : (s.replied r).store = s.store := rfl
@[simp] theorem State.replied_buf (r : Reply) : (s.replied r).buf = s.buf := rfl
@[simp] theorem State.replied_work (r : Reply) : (s.replied r).work = s.work := rfl
@[simp] theorem State.replied_fifo (r : Reply) : (s.replied r).fifo = s.fifo := rfl
@[simp] theorem State.replied_leg (r : Reply) : (s.replied r).leg = s.leg := rfl
@[simp] theorem State.replied_out (r : Reply) : (s.replied r).out = s.out := rfl
@[simp] theorem State.replied_params (r : Reply) : (s.replied r).params = s.params := rfl
@[simp] theorem State.replied_inputs (r : Reply) : (s.replied r).inputs = s.inputs := rfl
@[simp] theorem State.replied_drawn (r : Reply) : (s.replied r).drawn = s.drawn := rfl
@[simp] theorem State.replied_cascadeFrames (r : Reply) : (s.replied r).cascadeFrames = s.cascadeFrames := rfl
@[simp] theorem State.replied_reply (r : Reply) : (s.replied r).reply = r := rfl

/-! ## `setNf` -/

@[simp] theorem State.setNf_pipe (h : Fin 2) (v : Bool) : (s.setNf h v).pipe = s.pipe := by
  unfold State.setNf; split <;> rfl
@[simp] theorem State.setNf_nf0 (h : Fin 2) (v : Bool) : (s.setNf h v).nf0 = if h = 0 then v else s.nf0 := by
  unfold State.setNf; split <;> rfl
@[simp] theorem State.setNf_nf1 (h : Fin 2) (v : Bool) : (s.setNf h v).nf1 = if h = 0 then s.nf1 else v := by
  unfold State.setNf; split <;> rfl
@[simp] theorem State.setNf_dmaRun (h : Fin 2) (v : Bool) : (s.setNf h v).dmaRun = s.dmaRun := by
  unfold State.setNf; split <;> rfl
@[simp] theorem State.setNf_ampEn (h : Fin 2) (v : Bool) : (s.setNf h v).ampEn = s.ampEn := by
  unfold State.setNf; split <;> rfl
@[simp] theorem State.setNf_outMute (h : Fin 2) (v : Bool) : (s.setNf h v).outMute = s.outMute := by
  unfold State.setNf; split <;> rfl
@[simp] theorem State.setNf_storeValid (h : Fin 2) (v : Bool) : (s.setNf h v).storeValid = s.storeValid := by
  unfold State.setNf; split <;> rfl
@[simp] theorem State.setNf_reason (h : Fin 2) (v : Bool) : (s.setNf h v).reason = s.reason := by
  unfold State.setNf; split <;> rfl
@[simp] theorem State.setNf_cmdErr (h : Fin 2) (v : Bool) : (s.setNf h v).cmdErr = s.cmdErr := by
  unfold State.setNf; split <;> rfl
@[simp] theorem State.setNf_late (h : Fin 2) (v : Bool) : (s.setNf h v).late = s.late := by
  unfold State.setNf; split <;> rfl
@[simp] theorem State.setNf_lastFill (h : Fin 2) (v : Bool) : (s.setNf h v).lastFill = s.lastFill := by
  unfold State.setNf; split <;> rfl
@[simp] theorem State.setNf_swapLr (h : Fin 2) (v : Bool) : (s.setNf h v).swapLr = s.swapLr := by
  unfold State.setNf; split <;> rfl
@[simp] theorem State.setNf_pwrTier (h : Fin 2) (v : Bool) : (s.setNf h v).pwrTier = s.pwrTier := by
  unfold State.setNf; split <;> rfl
@[simp] theorem State.setNf_hostMute (h : Fin 2) (v : Bool) : (s.setNf h v).hostMute = s.hostMute := by
  unfold State.setNf; split <;> rfl
@[simp] theorem State.setNf_localMute (h : Fin 2) (v : Bool) : (s.setNf h v).localMute = s.localMute := by
  unfold State.setNf; split <;> rfl
@[simp] theorem State.setNf_irqEn (h : Fin 2) (v : Bool) : (s.setNf h v).irqEn = s.irqEn := by
  unfold State.setNf; split <;> rfl
@[simp] theorem State.setNf_hostVol (h : Fin 2) (v : Bool) : (s.setNf h v).hostVol = s.hostVol := by
  unfold State.setNf; split <;> rfl
@[simp] theorem State.setNf_localAtt (h : Fin 2) (v : Bool) : (s.setNf h v).localAtt = s.localAtt := by
  unfold State.setNf; split <;> rfl
@[simp] theorem State.setNf_volScale (h : Fin 2) (v : Bool) : (s.setNf h v).volScale = s.volScale := by
  unfold State.setNf; split <;> rfl
@[simp] theorem State.setNf_active (h : Fin 2) (v : Bool) : (s.setNf h v).active = s.active := by
  unfold State.setNf; split <;> rfl
@[simp] theorem State.setNf_crcResult (h : Fin 2) (v : Bool) : (s.setNf h v).crcResult = s.crcResult := by
  unfold State.setNf; split <;> rfl
@[simp] theorem State.setNf_fullCnt (h : Fin 2) (v : Bool) : (s.setNf h v).fullCnt = s.fullCnt := by
  unfold State.setNf; split <;> rfl
@[simp] theorem State.setNf_partCnt (h : Fin 2) (v : Bool) : (s.setNf h v).partCnt = s.partCnt := by
  unfold State.setNf; split <;> rfl
@[simp] theorem State.setNf_holdCnt (h : Fin 2) (v : Bool) : (s.setNf h v).holdCnt = s.holdCnt := by
  unfold State.setNf; split <;> rfl
@[simp] theorem State.setNf_heldL (h : Fin 2) (v : Bool) : (s.setNf h v).heldL = s.heldL := by
  unfold State.setNf; split <;> rfl
@[simp] theorem State.setNf_heldR (h : Fin 2) (v : Bool) : (s.setNf h v).heldR = s.heldR := by
  unfold State.setNf; split <;> rfl
@[simp] theorem State.setNf_dmaPos (h : Fin 2) (v : Bool) : (s.setNf h v).dmaPos = s.dmaPos := by
  unfold State.setNf; split <;> rfl
@[simp] theorem State.setNf_bqs (h : Fin 2) (v : Bool) : (s.setNf h v).bqs = s.bqs := by
  unfold State.setNf; split <;> rfl
@[simp] theorem State.setNf_store (h : Fin 2) (v : Bool) : (s.setNf h v).store = s.store := by
  unfold State.setNf; split <;> rfl
@[simp] theorem State.setNf_buf (h : Fin 2) (v : Bool) : (s.setNf h v).buf = s.buf := by
  unfold State.setNf; split <;> rfl
@[simp] theorem State.setNf_work (h : Fin 2) (v : Bool) : (s.setNf h v).work = s.work := by
  unfold State.setNf; split <;> rfl
@[simp] theorem State.setNf_fifo (h : Fin 2) (v : Bool) : (s.setNf h v).fifo = s.fifo := by
  unfold State.setNf; split <;> rfl
@[simp] theorem State.setNf_leg (h : Fin 2) (v : Bool) : (s.setNf h v).leg = s.leg := by
  unfold State.setNf; split <;> rfl
@[simp] theorem State.setNf_out (h : Fin 2) (v : Bool) : (s.setNf h v).out = s.out := by
  unfold State.setNf; split <;> rfl
@[simp] theorem State.setNf_params (h : Fin 2) (v : Bool) : (s.setNf h v).params = s.params := by
  unfold State.setNf; split <;> rfl
@[simp] theorem State.setNf_inputs (h : Fin 2) (v : Bool) : (s.setNf h v).inputs = s.inputs := by
  unfold State.setNf; split <;> rfl
@[simp] theorem State.setNf_drawn (h : Fin 2) (v : Bool) : (s.setNf h v).drawn = s.drawn := by
  unfold State.setNf; split <;> rfl
@[simp] theorem State.setNf_cascadeFrames (h : Fin 2) (v : Bool) : (s.setNf h v).cascadeFrames = s.cascadeFrames := by
  unfold State.setNf; split <;> rfl
@[simp] theorem State.setNf_reply (h : Fin 2) (v : Bool) : (s.setNf h v).reply = s.reply := by
  unfold State.setNf; split <;> rfl

/-- The flag set reads back, and the other half's flag is as before. -/
theorem State.nf_setNf (h k : Fin 2) (v : Bool) : (s.setNf h v).nf k = if k = h then v else s.nf k := by
  fin_cases h <;> fin_cases k <;> rfl

end Sys2Proof.Machine
end

