-- ==== Sys2Proof/Laws/Fill.lean ====
section
/-! SUPPORT. What the cascade and the fill engine can change, said once, and the lengths and ranges of what they make.
Each lemma covers everything its function does to the state. -/

namespace Sys2Proof.Machine

open Sys2Proof

/-! ## `BQS` slots -/

/-- Two slots are at the same place only if they are the same slot. -/
theorem bqsIndex_inj {f f' : Fin 10} {c c' : Fin 2} (h : bqsIndex f c = bqsIndex f' c') : f = f' ∧ c = c' := by
  have h' : 2 * f.val + c.val = 2 * f'.val + c'.val := congrArg Fin.val h
  omega

/-- Read after write of a slot: the written value there, every other slot as before. -/
theorem getDelay_setDelay (b : Vector Delay 20) (f : Fin 10) (c : Fin 2) (d : Delay) (f' : Fin 10) (c' : Fin 2) :
    getDelay (setDelay b f c d) f' c' = if f' = f ∧ c' = c then d else getDelay b f' c' := by
  unfold getDelay setDelay
  split
  · rename_i h
    rw [h.1, h.2]
    exact Vector.getElem_set_self (xs := b) (bqsIndex f c).isLt
  · rename_i h
    have hne : (bqsIndex f c).val ≠ (bqsIndex f' c').val := fun e =>
      h ⟨((bqsIndex_inj (Fin.ext e)).1).symm, ((bqsIndex_inj (Fin.ext e)).2).symm⟩
    exact Vector.getElem_set_ne (xs := b) (x := d) (bqsIndex f c).isLt (bqsIndex f' c').isLt hne

/-- The cascade of one sample writes slots of running filters among those it goes through, on its own channel, and no
other (R155). -/
theorem cascadeFrom_frame (m : Memory) (p : Fin 10) (c : Fin 2) (k : Fin 10) (c' : Fin 2) :
    ∀ (ks : List (Fin 10)) (b : Vector Delay 20) (x : F32),
      (c' ≠ c ∨ k ∉ ks ∨ filterRuns m p k = false) →
      getDelay (cascadeFrom m p c ks b x).1 k c' = getDelay b k c'
  | [], _, _, _ => rfl
  | j :: ks, b, x, h => by
    unfold cascadeFrom
    have hks : c' ≠ c ∨ k ∉ ks ∨ filterRuns m p k = false := by
      rcases h with h | h | h
      · exact .inl h
      · exact .inr (.inl fun hk => h (List.mem_cons_of_mem _ hk))
      · exact .inr (.inr h)
    split
    · rename_i hrun
      simp only
      rw [cascadeFrom_frame m p c k c' ks _ _ hks, getDelay_setDelay, if_neg]
      rintro ⟨rfl, rfl⟩
      rcases h with h | h | h
      · exact h rfl
      · exact h (by simp)
      · exact absurd hrun (by simp [h])
    · exact cascadeFrom_frame m p c k c' ks b x hks

/-! ## The cascade -/

/-- The cascade gives one output word per input word. -/
theorem length_cascadeWords (m : Memory) (p : Fin 10) (g : F32) :
    ∀ (words : List Word) (c : Fin 2) (b : Vector Delay 20), (cascadeWords m p g c b words).2.length = words.length
  | [], _, _ => rfl
  | v :: rest, c, b => by
    unfold cascadeWords
    simp only [List.length_cons]
    rw [length_cascadeWords m p g rest]

/-- `bq_process` changes `BQS` and the frame counter only. -/
theorem bqProcess_state (s : State) (words : List Word) (vs : Nat) :
    ∃ b k, (bqProcess s words vs).1 = { s with bqs := b, cascadeFrames := k } := by
  unfold bqProcess
  split
  · exact ⟨s.bqs, s.cascadeFrames, rfl⟩
  · exact ⟨_, _, rfl⟩

theorem length_bqProcess (s : State) (words : List Word) (vs : Nat) :
    (bqProcess s words vs).2.length = words.length := by
  unfold bqProcess
  split
  · rfl
  · exact length_cascadeWords _ _ _ _ _ _

/-- With no valid active profile `bq_process` changes nothing (R159). -/
theorem bqProcess_none {s : State} (h : s.validActive = none) (words : List Word) (vs : Nat) :
    bqProcess s words vs = (s, words) := by
  unfold bqProcess
  rw [h]

/-- With one, it is the cascade (R159). -/
theorem bqProcess_some {s : State} {p : Fin 10} (h : s.validActive = some p) (words : List Word) (vs : Nat) :
    bqProcess s words vs =
      ({ s with
          bqs := (cascadeWords s.store p (callGain s.params.preAtt vs) 0 s.bqs words).1
          cascadeFrames := s.cascadeFrames + words.length / 2 },
        (cascadeWords s.store p (callGain s.params.preAtt vs) 0 s.bqs words).2) := by
  unfold bqProcess
  rw [h]

/-! ## Samples -/

theorem f2s24_range (t : F32) : -8388608 ≤ F32.f2s24 t ∧ F32.f2s24 t ≤ 8388607 := by
  cases t with
  | nan => decide
  | inf neg => cases neg <;> decide
  | fin neg e m =>
    cases neg
    · simp only [F32.f2s24]
      omega
    · simp only [F32.f2s24]
      omega

theorem sampleOut_toInt (y : F32) : (sampleOut y).toInt = F32.f2s24 (F32.fmul y outputScale) := by
  have h := f2s24_range (F32.fmul y outputScale)
  unfold sampleOut
  rw [BitVec.toInt_ofInt]
  exact Int.bmod_eq_of_le (by omega) (by omega)

theorem length_legacyEq (leg : Config.LegacyState) (words : List Word) (vs : Nat) :
    (legacyEq leg words vs).2.length = words.length := by
  simp [legacyEq]

theorem length_swapFrames : ∀ words : List Word, (swapFrames words).length = words.length
  | [] => rfl
  | [_] => rfl
  | _ :: _ :: rest => by simp [swapFrames, length_swapFrames rest]

/-- n frames of source bytes make 2n samples (R231). -/
theorem length_unpack : ∀ (n : Nat) (bytes : List Byte), bytes.length = 3 * n → (unpack bytes).length = n
  | 0, bytes, h => by
    have : bytes = [] := List.length_eq_zero_iff.1 (by omega)
    subst this
    rfl
  | n + 1, b0 :: b1 :: b2 :: rest, h => by
    simp only [unpack, List.length_cons]
    rw [length_unpack n rest (by simp only [List.length_cons] at h; omega)]
  | n + 1, [], h => by simp at h
  | n + 1, [_], h => by simp at h; omega
  | n + 1, [_, _], h => by simp at h; omega

/-- With n whole frames in the FIFO, a read of n frames gives 2n samples. -/
theorem length_sourceWords {s : State} {n : Nat} (h : 6 * n ≤ s.avail) : (sourceWords s n).length = 2 * n := by
  have hlen : (unpack (s.fifo.take (6 * n))).length = 2 * n := by
    have h' : 6 * n ≤ s.fifo.length := h
    refine length_unpack _ _ ?_
    rw [List.length_take, Nat.min_eq_left h']
    omega
  unfold sourceWords
  simp only
  split
  · rw [length_swapFrames]
    exact hlen
  · exact hlen

theorem length_heldFrames (s : State) (n : Nat) : (heldFrames s n).length = 2 * n := by
  unfold heldFrames
  induction n with
  | zero => rfl
  | succ n ih => simp [List.replicate_succ] at ih ⊢; omega

/-- A half's worth of words keeps `BUF`'s length. -/
theorem length_writeHalf {hf : Nat} (h : Fin 2) {half buf : List Word} (hh : half.length = 2 * hf)
    (hb : buf.length = 4 * hf) : (writeHalf hf h half buf).length = 4 * hf := by
  unfold writeHalf
  split <;> simp [hh, hb] <;> omega

/-! ## Fills -/

/-- EQ dispatch changes `BQS`, the frame counter and `LEG` only (R233). -/
theorem eqDispatch_state (s : State) (words : List Word) (vs : Nat) :
    ∃ b k l, (eqDispatch s words vs).1 = { s with bqs := b, cascadeFrames := k, leg := l } := by
  unfold eqDispatch
  split
  · obtain ⟨b, k, h⟩ := bqProcess_state s words vs
    exact ⟨b, k, s.leg, h⟩
  · exact ⟨s.bqs, s.cascadeFrames, _, rfl⟩

theorem length_eqDispatch (s : State) (words : List Word) (vs : Nat) :
    (eqDispatch s words vs).2.length = words.length := by
  unfold eqDispatch
  split
  · exact length_bqProcess _ _ _
  · exact length_legacyEq _ _ _

/-- `read_process(n)` takes 6n bytes, may change `BQS` and `LEG`, and captures the last processed frame (R236). -/
theorem readProcess_state (s : State) (n : Nat) :
    ∃ b k l, (readProcess s n).1 =
      { s with
        fifo := s.fifo.drop (6 * n)
        bqs := b
        cascadeFrames := k
        leg := l
        heldL := (readProcess s n).2.getD (2 * n - 2) 0
        heldR := (readProcess s n).2.getD (2 * n - 1) 0 } := by
  obtain ⟨b, k, l, h⟩ :=
    eqDispatch_state { s with fifo := s.fifo.drop (6 * n) } (sourceWords s n) s.volScale
  refine ⟨b, k, l, ?_⟩
  unfold readProcess
  simp only [State.captureHeld]
  rw [h]

theorem length_readProcess {s : State} {n : Nat} (h : 6 * n ≤ s.avail) : (readProcess s n).2.length = 2 * n := by
  unfold readProcess
  simp only
  rw [length_eqDispatch, length_sourceWords h]

/-- What a full fill does (R237). -/
theorem fullFill_eq (s : State) (h : Fin 2) :
    ∃ b k l, fullFill s h =
      { s with
        fifo := s.fifo.drop s.params.halfBytes
        bqs := b
        cascadeFrames := k
        leg := l
        heldL := (readProcess s s.params.halfFrames).2.getD (2 * s.params.halfFrames - 2) 0
        heldR := (readProcess s s.params.halfFrames).2.getD (2 * s.params.halfFrames - 1) 0
        buf := writeHalf s.params.halfFrames h
          ((readProcess s s.params.halfFrames).2.map (pack s.params.outPack)) s.buf
        fullCnt := s.fullCnt + 1
        lastFill := .full } := by
  obtain ⟨b, k, l, e⟩ := readProcess_state s s.params.halfFrames
  refine ⟨b, k, l, ?_⟩
  unfold fullFill
  simp only [State.withHalf]
  rw [e]

/-- What a partial fill does (R238). -/
theorem partialFill_eq (s : State) (h : Fin 2) :
    ∃ b k l, partialFill s h =
      { s with
        fifo := s.fifo.drop (6 * (s.avail / 6))
        bqs := b
        cascadeFrames := k
        leg := l
        heldL := (readProcess s (s.avail / 6)).2.getD (2 * (s.avail / 6) - 2) 0
        heldR := (readProcess s (s.avail / 6)).2.getD (2 * (s.avail / 6) - 1) 0
        buf := writeHalf s.params.halfFrames h
          ((readProcess s (s.avail / 6)).2.map (pack s.params.outPack) ++
            heldFrames (readProcess s (s.avail / 6)).1 (s.params.halfFrames - s.avail / 6)) s.buf
        partCnt := s.partCnt + 1
        lastFill := .part } := by
  obtain ⟨b, k, l, e⟩ := readProcess_state s (s.avail / 6)
  refine ⟨b, k, l, ?_⟩
  unfold partialFill
  simp only [State.withHalf]
  rw [show Config.frameBytes = 6 from rfl, e]

/-- What a hold fill does (R239). -/
theorem holdFill_eq (s : State) (h : Fin 2) :
    holdFill s h =
      { s with
        buf := writeHalf s.params.halfFrames h (heldFrames s s.params.halfFrames) s.buf
        holdCnt := s.holdCnt + 1
        lastFill := .hold } := rfl

end Sys2Proof.Machine
end

