-- ==== Sys2Proof/Laws/PerInstr.lean ====
section
/-! SUPPORT. Statements about every instruction as syntax, one lemma per constructor. -/

namespace Sys2Proof.Laws

open Sys2Proof

/-- The encoded word matches its row of spec/opcode_table.json: under the row's mask it is the row's pattern. -/
def OpcodeRow.Statement (i : Instr) : Prop := encode i &&& (opcodeRow i).mask = (opcodeRow i).pattern

theorem OpcodeRow.nop : OpcodeRow.Statement .nop := by unfold OpcodeRow.Statement; decide
theorem OpcodeRow.bqReset : OpcodeRow.Statement .bqReset := by unfold OpcodeRow.Statement; decide
theorem OpcodeRow.clearActive : OpcodeRow.Statement .clearActive := by unfold OpcodeRow.Statement; decide
theorem OpcodeRow.aoStart : OpcodeRow.Statement .aoStart := by unfold OpcodeRow.Statement; decide
theorem OpcodeRow.aoStop : OpcodeRow.Statement .aoStop := by unfold OpcodeRow.Statement; decide
theorem OpcodeRow.aoTask : OpcodeRow.Statement .aoTask := by unfold OpcodeRow.Statement; decide
theorem OpcodeRow.volCompute : OpcodeRow.Statement .volCompute := by unfold OpcodeRow.Statement; decide
theorem OpcodeRow.eqInit : OpcodeRow.Statement .eqInit := by unfold OpcodeRow.Statement; decide
theorem OpcodeRow.storeSeal : OpcodeRow.Statement .storeSeal := by unfold OpcodeRow.Statement; decide

/-- A format I word under the format's mask is its opcode (30_encoding.md R112). -/
theorem encodeI_masked (op id : BitVec 8) : encodeI op id &&& 0xFFFF00FF = op.zeroExtend 32 := by
  apply BitVec.eq_of_getLsbD_eq
  intro k hk
  unfold encodeI
  simp only [BitVec.getLsbD_and, BitVec.getLsbD_append, BitVec.getLsbD_setWidth]
  interval_cases k <;> simp

/-- A format P word under the format's mask is its opcode (30_encoding.md R113). -/
theorem encodeP_masked (op : BitVec 8) (nfr : BitVec 12) (vs : BitVec 9) :
    encodeP op nfr vs &&& 0xE00000FF = op.zeroExtend 32 := by
  apply BitVec.eq_of_getLsbD_eq
  intro k hk
  unfold encodeP
  simp only [BitVec.getLsbD_and, BitVec.getLsbD_append, BitVec.getLsbD_setWidth]
  interval_cases k <;> simp

/-- A format R word under the format's mask is its opcode (30_encoding.md R114). -/
theorem encodeR_masked (op : BitVec 8) (start len : BitVec 12) :
    encodeR op start len &&& 0x000000FF = op.zeroExtend 32 := by
  apply BitVec.eq_of_getLsbD_eq
  intro k hk
  unfold encodeR
  simp only [BitVec.getLsbD_and, BitVec.getLsbD_append, BitVec.getLsbD_setWidth]
  interval_cases k <;> simp

theorem OpcodeRow.bqProcess (nfr : BitVec 12) (vs : BitVec 9) : OpcodeRow.Statement (.bqProcess nfr vs) :=
  encodeP_masked 0x02 nfr vs
theorem OpcodeRow.setActive (id : BitVec 8) : OpcodeRow.Statement (.setActive id) := encodeI_masked 0x03 id
theorem OpcodeRow.profCommit (id : BitVec 8) : OpcodeRow.Statement (.profCommit id) := encodeI_masked 0x05 id
theorem OpcodeRow.profDelete (id : BitVec 8) : OpcodeRow.Statement (.profDelete id) := encodeI_masked 0x06 id
theorem OpcodeRow.crcRun (start len : BitVec 12) : OpcodeRow.Statement (.crcRun start len) :=
  encodeR_masked 0x30 start len

end Sys2Proof.Laws
end

