-- ==== Sys2Proof/Laws/Step.lean ====
section
/-! SUPPORT. What a step can do, said once: the inversion lemmas of the bus and of the agents. -/

namespace Sys2Proof.Machine

open Sys2Proof

/-- The command register is reached by the 32-bit access at offset 0 and by no other. -/
theorem target_cmd {hf : Nat} {addr : Offset} {size : AccessSize}
    (h : target hf addr size = .register .cmd) : addr = 0 ∧ size = .word := by
  unfold target at h
  simp only at h
  split at h
  · cases h
  · rename_i hal
    split at h
    · rename_i hlt
      unfold wordOnly at h
      split at h
      · rename_i hsize
        split at h
        · rename_i r hr
          cases h
          have h0 : addr.toNat / 4 = 0 := by
            unfold registerAt at hr
            split at hr <;> first | assumption | cases hr
          subst hsize
          have hz : addr.toNat % 4 = 0 := by simpa using hal
          exact ⟨BitVec.eq_of_toNat_eq (by simp; omega), rfl⟩
        · cases h
      · cases h
    · repeat' split at h
      all_goals first | cases h | (unfold wordOnly at h; split at h <;> cases h)

/-- A 32-bit write at offset 0 reaches the command register, whatever `HALF_FRAMES`. -/
theorem target_zero (hf : Nat) : target hf 0 .word = .register .cmd := by
  unfold target
  rfl

/-- What a HOST write can do: issue a command, write a register, `STORE` or `WORK`, change nothing, or raise
`BusFault`. -/
theorem hostWrite_cases {addr : Offset} {size : AccessSize} {v : Word} {s t : State}
    (h : hostWrite addr size v s = .next t) :
    (addr = 0 ∧ size = .word ∧ issue v (s.replied .ack) = .next t) ∨
    t = (s.replied .ack).writeStatus v ∨
    t = (s.replied .ack).writeCtrl v ∨
    t = (s.replied .ack).writeHostVol v ∨
    t = (s.replied .ack).writeLocalAtt v ∨
    (∃ i, target s.params.halfFrames addr size = .store i ∧
      t = (s.replied .ack).withStore (writeStore s.store i v size)) ∨
    (∃ w, target s.params.halfFrames addr size = .work w ∧
      t = { s.replied .ack with work := s.work.set w v }) ∨
    t = s.replied .ack ∨
    (target s.params.halfFrames addr size = .fault ∧ t = s.replied (.busFault addr)) := by
  unfold hostWrite at h
  split at h
  · rename_i r hr
    cases r
    case cmd => exact .inl ⟨(target_cmd hr).1, (target_cmd hr).2, h⟩
    case status => cases h; exact .inr (.inl rfl)
    case ctrl => cases h; exact .inr (.inr (.inl rfl))
    case hostVol => cases h; exact .inr (.inr (.inr (.inl rfl)))
    case localAtt => cases h; exact .inr (.inr (.inr (.inr (.inl rfl))))
    all_goals
      cases h
      exact .inr (.inr (.inr (.inr (.inr (.inr (.inr (.inl rfl)))))))
  · rename_i i hi
    cases h
    exact .inr (.inr (.inr (.inr (.inr (.inl ⟨i, hi, rfl⟩)))))
  · cases h
    exact .inr (.inr (.inr (.inr (.inr (.inr (.inr (.inl rfl)))))))
  · rename_i w hw
    cases h
    exact .inr (.inr (.inr (.inr (.inr (.inr (.inl ⟨w, hw, rfl⟩))))))
  · cases h
    exact .inr (.inr (.inr (.inr (.inr (.inr (.inr (.inl rfl)))))))
  · cases h
    exact .inr (.inr (.inr (.inr (.inr (.inr (.inr (.inl rfl)))))))
  · rename_i hf
    cases h
    exact .inr (.inr (.inr (.inr (.inr (.inr (.inr (.inr ⟨hf, rfl⟩)))))))

/-- What issuing a word can do: the decoded command runs, or the word is rejected. -/
theorem issue_cases {w : Word} {s t : State} (h : issue w s = .next t) :
    (∃ i, decodeWord w = .ok i ∧ exec i s = .next t) ∨ ((∃ e, decodeWord w = .error e) ∧ t = s.reject) := by
  unfold issue at h
  split at h
  · rename_i i hi
    exact .inl ⟨i, hi, h⟩
  · rename_i e he
    cases h
    exact .inr ⟨⟨e, he⟩, rfl⟩

/-- What a step can do: a read, a write, a DMA step, a SRC step, or a hardware reset. -/
theorem step_cases {s t : State} (h : step s = .next t) :
    (∃ addr size, s.nextAccess = some (.read addr size) ∧
      t = (nextInput s).2.replied ((nextInput s).2.readReply addr size)) ∨
    (∃ addr size v, s.nextAccess = some (.write addr size v) ∧ hostWrite addr size v (nextInput s).2 = .next t) ∨
    ((nextInput s).1 = .dma ∧ t = dmaStep (nextInput s).2) ∨
    (∃ b, (nextInput s).1 = .src b ∧ t = srcStep (nextInput s).2 b) ∨
    ((nextInput s).1 = .reset ∧ t = hardReset (nextInput s).2) := by
  unfold step at h
  unfold State.nextAccess
  cases hi : (nextInput s).1 with
  | host a =>
    rw [hi] at h
    cases a with
    | read addr size =>
      cases h
      exact .inl ⟨addr, size, rfl, rfl⟩
    | write addr size v => exact .inr (.inl ⟨addr, size, v, rfl, h⟩)
  | dma =>
    rw [hi] at h
    cases h
    exact .inr (.inr (.inl ⟨rfl, rfl⟩))
  | src b =>
    rw [hi] at h
    cases h
    exact .inr (.inr (.inr (.inl ⟨b, rfl, rfl⟩)))
  | reset =>
    rw [hi] at h
    cases h
    exact .inr (.inr (.inr (.inr ⟨rfl, rfl⟩)))

/-- Reset does not write `STORE` (70_reset_and_hazards.md R342). -/
@[simp] theorem hardReset_store (s : State) : (hardReset s).store = s.store := rfl
@[simp] theorem hardReset_params (s : State) : (hardReset s).params = s.params := rfl
@[simp] theorem hardReset_inputs (s : State) : (hardReset s).inputs = s.inputs := rfl

/-- Taking an input changes only the list of inputs and the count of open ones. -/
theorem nextInput_state (s : State) :
    ∃ is k, (nextInput s).2 = { s with inputs := is, drawn := k } := by
  unfold nextInput
  split
  · exact ⟨_, s.drawn, rfl⟩
  · exact ⟨s.inputs, _, rfl⟩

end Sys2Proof.Machine
end

