-- ==== Sys2Proof/Laws/Task.lean ====
section
/-! SUPPORT. Everything that servicing a half, AO_TASK and any command can change, said once: claims about what a command
leaves alone cite these lemmas. -/

namespace Sys2Proof.Machine

open Sys2Proof

/-- What a fill can change: `BUF`, the FIFO, the filter and legacy state, the held pair, the counters and `LAST_FILL`. -/
theorem fillHalf_eq (s : State) (h : Fin 2) :
    ∃ buf fifo bqs k leg l r full part hold last, fillHalf s h =
      { s with
        buf := buf, fifo := fifo, bqs := bqs, cascadeFrames := k, leg := leg, heldL := l, heldR := r
        fullCnt := full, partCnt := part, holdCnt := hold, lastFill := last } := by
  unfold fillHalf
  split
  · obtain ⟨b, k, l, e⟩ := fullFill_eq s h
    exact ⟨_, _, b, k, l, _, _, _, s.partCnt, s.holdCnt, _, e⟩
  · split
    · obtain ⟨b, k, l, e⟩ := partialFill_eq s h
      exact ⟨_, _, b, k, l, _, _, s.fullCnt, _, s.holdCnt, _, e⟩
    · exact ⟨_, s.fifo, s.bqs, s.cascadeFrames, s.leg, s.heldL, s.heldR, s.fullCnt, s.partCnt, _, _, holdFill_eq s h⟩

/-- What servicing a half can change: what a fill can, `VOLSCALE` (latched), and the half's flag (cleared) (R240). -/
theorem service_eq (s : State) (h : Fin 2) :
    ∃ buf fifo bqs k leg l r full part hold last, service s h =
      { s with
        buf := buf, fifo := fifo, bqs := bqs, cascadeFrames := k, leg := leg, heldL := l, heldR := r
        fullCnt := full, partCnt := part, holdCnt := hold, lastFill := last, volScale := s.volscale
        nf0 := if h = 0 then false else s.nf0
        nf1 := if h = 0 then s.nf1 else false } := by
  obtain ⟨buf, fifo, bqs, k, leg, l, r, full, part, hold, last, e⟩ := fillHalf_eq s.latchVolume h
  refine ⟨buf, fifo, bqs, k, leg, l, r, full, part, hold, last, ?_⟩
  unfold service State.setNf
  rw [e]
  by_cases h0 : h = 0
  · simp only [if_pos h0, State.latchVolume]
  · simp only [if_neg h0, State.latchVolume]

/-- What AO_TASK can change while streaming; afterwards no half is flagged (R245). -/
theorem taskStreaming_eq (s : State) :
    ∃ buf fifo bqs k leg l r full part hold last v, taskStreaming s =
      { s with
        buf := buf, fifo := fifo, bqs := bqs, cascadeFrames := k, leg := leg, heldL := l, heldR := r
        fullCnt := full, partCnt := part, holdCnt := hold, lastFill := last, volScale := v
        nf0 := false, nf1 := false } := by
  have flagged : ∀ (s : State) (h : Fin 2), ∃ buf fifo bqs k leg l r full part hold last v, serviceIfFlagged s h =
      { s with
        buf := buf, fifo := fifo, bqs := bqs, cascadeFrames := k, leg := leg, heldL := l, heldR := r
        fullCnt := full, partCnt := part, holdCnt := hold, lastFill := last, volScale := v
        nf0 := if h = 0 then false else s.nf0
        nf1 := if h = 0 then s.nf1 else false } := by
    intro s h
    unfold serviceIfFlagged
    split
    · obtain ⟨buf, fifo, bqs, k, leg, l, r, full, part, hold, last, e⟩ := service_eq s h
      exact ⟨buf, fifo, bqs, k, leg, l, r, full, part, hold, last, s.volscale, e⟩
    · rename_i hf
      refine ⟨s.buf, s.fifo, s.bqs, s.cascadeFrames, s.leg, s.heldL, s.heldR, s.fullCnt, s.partCnt, s.holdCnt,
        s.lastFill, s.volScale, ?_⟩
      unfold State.nf at hf
      by_cases h0 : h = 0
      · simp only [if_pos h0] at hf ⊢
        rw [← Bool.eq_false_iff.2 hf]
      · simp only [if_neg h0] at hf ⊢
        rw [← Bool.eq_false_iff.2 hf]
  obtain ⟨buf, fifo, bqs, k, leg, l, r, full, part, hold, last, v, e⟩ := flagged s 0
  obtain ⟨buf', fifo', bqs', k', leg', l', r', full', part', hold', last', v', e'⟩ := flagged (serviceIfFlagged s 0) 1
  refine ⟨buf', fifo', bqs', k', leg', l', r', full', part', hold', last', v', ?_⟩
  unfold taskStreaming
  rw [e', e]
  rfl

/-- The fills of the prebuffer transition (R244). -/
theorem prebufFills_eq (s : State) :
    ∃ buf fifo bqs k leg l r full last v, prebufFills s =
      { s with
        buf := buf, fifo := fifo, bqs := bqs, cascadeFrames := k, leg := leg, heldL := l, heldR := r
        fullCnt := full, lastFill := last, volScale := v } := by
  have one : ∀ (s : State) (h : Fin 2), ∃ buf fifo bqs k leg l r full last v, prebufFill s h =
      { s with
        buf := buf, fifo := fifo, bqs := bqs, cascadeFrames := k, leg := leg, heldL := l, heldR := r
        fullCnt := full, lastFill := last, volScale := v } := by
    intro s h
    obtain ⟨b, k, l, e⟩ := fullFill_eq s.latchVolume h
    exact ⟨_, _, b, k, l, _, _, _, _, s.volscale, e⟩
  unfold prebufFills
  split
  · simp only
    obtain ⟨buf, fifo, bqs, k, leg, l, r, full, last, v, e⟩ := one s 0
    split
    · obtain ⟨buf', fifo', bqs', k', leg', l', r', full', last', v', e'⟩ := one (prebufFill s 0) 1
      refine ⟨buf', fifo', bqs', k', leg', l', r', full', last', v', ?_⟩
      rw [e', e]
    · exact ⟨buf, fifo, bqs, k, leg, l, r, full, last, v, e⟩
  · exact ⟨s.buf, s.fifo, s.bqs, s.cascadeFrames, s.leg, s.heldL, s.heldR, s.fullCnt, s.lastFill, s.volScale, rfl⟩

/-- What AO_TASK can change in PREBUF: nothing below the threshold, and the transition to STREAMING at it (R244). -/
theorem taskPrebuf_eq (s : State) :
    (s.avail < s.params.prebufBytes ∧ taskPrebuf s = s) ∨
    (s.params.prebufBytes ≤ s.avail ∧ ∃ buf fifo bqs k leg l r full last v, taskPrebuf s =
      { s with
        buf := buf, fifo := fifo, bqs := bqs, cascadeFrames := k, leg := leg, heldL := l, heldR := r
        fullCnt := full, lastFill := last, volScale := v
        dmaPos := 0, nf0 := false, nf1 := false, dmaRun := true, ampEn := true, pipe := .streaming }) := by
  unfold taskPrebuf
  split
  · rename_i h
    exact .inl ⟨h, rfl⟩
  · rename_i h
    obtain ⟨buf, fifo, bqs, k, leg, l, r, full, last, v, e⟩ := prebufFills_eq s
    refine .inr ⟨Nat.le_of_not_lt h, buf, fifo, bqs, k, leg, l, r, full, last, v, ?_⟩
    rw [e]
    rfl

/-- What no command changes: the control registers (R36), `LATE`, the trace, the parameters, and the model's own record of
inputs and bus replies. -/
structure CommandKeeps (s t : State) : Prop where
  control : t.swapLr = s.swapLr ∧ t.pwrTier = s.pwrTier ∧ t.hostMute = s.hostMute ∧ t.localMute = s.localMute ∧
    t.irqEn = s.irqEn ∧ t.hostVol = s.hostVol ∧ t.localAtt = s.localAtt
  late : t.late = s.late
  out : t.out = s.out
  params : t.params = s.params
  own : t.inputs = s.inputs ∧ t.drawn = s.drawn ∧ t.reply = s.reply

/-- Every command keeps them. -/
theorem exec_keeps {i : Instr} {s t : State} (h : exec i s = .next t) : CommandKeeps s t := by
  have same : CommandKeeps s s := ⟨⟨rfl, rfl, rfl, rfl, rfl, rfl, rfl⟩, rfl, rfl, rfl, rfl, rfl, rfl⟩
  cases i with
  | nop => cases h; exact same
  | bqReset => cases h; exact ⟨⟨rfl, rfl, rfl, rfl, rfl, rfl, rfl⟩, rfl, rfl, rfl, rfl, rfl, rfl⟩
  | bqProcess nfr vs =>
    cases h
    split
    · obtain ⟨b, k, e⟩ := bqProcess_state s (s.work.take (2 * nfr.toNat)) vs.toNat
      unfold bqProcessWork
      simp only
      rw [e]
      exact ⟨⟨rfl, rfl, rfl, rfl, rfl, rfl, rfl⟩, rfl, rfl, rfl, rfl, rfl, rfl⟩
    · exact ⟨⟨rfl, rfl, rfl, rfl, rfl, rfl, rfl⟩, rfl, rfl, rfl, rfl, rfl, rfl⟩
  | setActive id =>
    cases h
    split
    · split <;> exact ⟨⟨rfl, rfl, rfl, rfl, rfl, rfl, rfl⟩, rfl, rfl, rfl, rfl, rfl, rfl⟩
    · exact ⟨⟨rfl, rfl, rfl, rfl, rfl, rfl, rfl⟩, rfl, rfl, rfl, rfl, rfl, rfl⟩
  | clearActive => cases h; exact ⟨⟨rfl, rfl, rfl, rfl, rfl, rfl, rfl⟩, rfl, rfl, rfl, rfl, rfl, rfl⟩
  | profCommit id =>
    cases h
    split <;> exact ⟨⟨rfl, rfl, rfl, rfl, rfl, rfl, rfl⟩, rfl, rfl, rfl, rfl, rfl, rfl⟩
  | profDelete id =>
    cases h
    split <;> constructor <;> simp
  | aoStart => cases h; exact ⟨⟨rfl, rfl, rfl, rfl, rfl, rfl, rfl⟩, rfl, rfl, rfl, rfl, rfl, rfl⟩
  | aoStop => cases h; exact ⟨⟨rfl, rfl, rfl, rfl, rfl, rfl, rfl⟩, rfl, rfl, rfl, rfl, rfl, rfl⟩
  | aoTask =>
    cases h
    split
    · exact same
    · rcases taskPrebuf_eq s with ⟨-, e⟩ | ⟨-, _, _, _, _, _, _, _, _, _, _, e⟩
      · rw [e]; exact same
      · rw [e]; exact ⟨⟨rfl, rfl, rfl, rfl, rfl, rfl, rfl⟩, rfl, rfl, rfl, rfl, rfl, rfl⟩
    · obtain ⟨_, _, _, _, _, _, _, _, _, _, _, _, e⟩ := taskStreaming_eq s
      rw [e]
      exact ⟨⟨rfl, rfl, rfl, rfl, rfl, rfl, rfl⟩, rfl, rfl, rfl, rfl, rfl, rfl⟩
  | volCompute => cases h; exact ⟨⟨rfl, rfl, rfl, rfl, rfl, rfl, rfl⟩, rfl, rfl, rfl, rfl, rfl, rfl⟩
  | crcRun start len =>
    cases h
    split <;> exact ⟨⟨rfl, rfl, rfl, rfl, rfl, rfl, rfl⟩, rfl, rfl, rfl, rfl, rfl, rfl⟩
  | eqInit => cases h; exact ⟨⟨rfl, rfl, rfl, rfl, rfl, rfl, rfl⟩, rfl, rfl, rfl, rfl, rfl, rfl⟩
  | storeSeal => cases h; exact ⟨⟨rfl, rfl, rfl, rfl, rfl, rfl, rfl⟩, rfl, rfl, rfl, rfl, rfl, rfl⟩

end Sys2Proof.Machine
end

