-- ==== Sys2Proof/Tests/Slice0.lean ====
section
/-! SUPPORT. Tests: expected values are those of spec/95_test_vectors.md (the vector is named) or are worked out by hand
from the rule named. Then one witness theorem per obligation with hypotheses: a concrete state that meets them. -/

-- One theorem at a time: the kernel evaluations below would otherwise each hold a thread.
set_option Elab.async false

namespace Sys2Proof.Tests

open Sys2Proof Sys2Proof.Machine

/-! ## A small block -/

/-- The test configuration of 95_test_vectors.md section 1, with the given `HALF_FRAMES`, `PREBUF_BYTES` and end of the
checked region. -/
def testParams (hf prebuf crcHi : Nat) : Config.Params where
  halfFrames := hf
  prebufBytes := prebuf
  srcCap := 4096
  storeMagic := 0xA5A50001
  storeVersion := 1
  volDbMin := -60
  volDbMax := 0
  volCurve := (List.range 61).map fun k => 16 + 4 * k
  headroom := #v[128, 192, 256]
  preAtt := Config.preAttDefault
  outPack := .sext32
  crcLo := 16
  crcHi := crcHi

/-- Slot 0 as program L3-1 steps 3 to 6 write it: "Flat", one filter with b0 = 1.0, type 1, enabled. -/
def flatStore : Memory :=
  ((((Memory.mk []).wr32 16 0x74616C46).wr8 32 1).wr32 36 0x3F800000).wr16 68 0x0101

/-- A block with `HALF_FRAMES` = hf, just reset, with slot 0 as above and selected. -/
def flat (hf : Nat) : State := { State.resetWith (testParams hf (12 * hf) 3816) flatStore with active := some 0 }

/-- The block while streaming with bytes in the FIFO and flags as given. -/
def streaming (fifo : List Byte) (nf0 nf1 : Bool) : State :=
  { flat 2 with pipe := .streaming, ampEn := true, nf0 := nf0, nf1 := nf1, fifo := fifo, volScale := 256,
                pwrTier := 2, localAtt := 100, heldL := 3, heldR := 4 }

/-- The block in PREBUF with threshold and FIFO as given. -/
def prebuffering (prebuf : Nat) (fifo : List Byte) : State :=
  { flat 2 with params := testParams 2 prebuf 3816, pipe := .prebuf, fifo := fifo, pwrTier := 2, localAtt := 100 }

/-- ASCII "123456789" at bytes 16 to 24, magic and version right, the checked region those nine bytes. -/
def digits : State :=
  State.resetWith (testParams 2 24 25)
    (((((((Memory.mk []).wr32 0 0xA5A50001).wr8 4 1).wr32 16 0x34333231).wr32 20 0x38373635).wr8 24 0x39))

/-- The same, sealed: bytes 8 to 11 hold the checksum (CRC-1). -/
def sealedDigits : State := { digits with store := digits.store.wr32 8 0xCBF43926 }

/-- Four frames of program L3-3 step 6. -/
def fourFrames : List Byte :=
  [0xE8, 0x03, 0x00, 0x18, 0xFC, 0xFF, 0xD0, 0x07, 0x00, 0x30, 0xF8, 0xFF, 0xB8, 0x0B, 0x00, 0x48, 0xF4, 0xFF, 0xA0,
    0x0F, 0x00, 0x60, 0xF0, 0xFF]

/-- The state with one agent step to come. -/
def given (s : State) (i : Input) : State := { s with inputs := [i] }

/-- The next state of an outcome. -/
def nextOf : Host.Outcome State Fault Refusal → Option State
  | .next t => some t
  | .fault _ => none
  | .refused _ => none

/-- The invariant as a computation. -/
def invCheck (s : State) : Bool :=
  decide (s.params.wf ∧ s.store.wf) &&
    decide (s.buf.length = 4 * s.params.halfFrames ∧ s.work.length = 2 * s.params.halfFrames) &&
    decide (∀ i : Fin 20, (s.bqs.get i).canonical) &&
    decide ((s.params.volDbMin ≤ s.hostVol ∧ s.hostVol ≤ s.params.volDbMax) ∧ s.localAtt ≤ 100 ∧ s.volScale ≤ 256) &&
    decide ((inSampleRange s.heldL ∧ inSampleRange s.heldR) ∧ s.dmaPos < 2 * s.params.halfFrames ∧
      s.fifo.length ≤ s.params.srcCap) &&
    decide (s.dmaRun = true ∧ (s.outMute = false ∧ ∀ f ∈ s.out, f.mute = false) ∧
      s.ampEn = decide (s.pipe = .streaming))

theorem inv_of_check {s : State} (h : invCheck s = true) : s.Inv := by
  simp only [invCheck, Bool.and_eq_true, decide_eq_true_eq] at h
  obtain ⟨⟨⟨⟨⟨h1, h2⟩, h3⟩, h4⟩, h5⟩, h6⟩ := h
  exact ⟨h1.1, h1.2, h2.1, h2.2, h3, h4.1, h4.2.1, h4.2.2, h5.1, h5.2.1, h5.2.2, h6.1, h6.2.1, h6.2.2⟩

/-! ## WellFormed: one ill-formed term per check (R116) -/

theorem test_wellformed_refuses_too_many_frames : (Instr.bqProcess 5 256).operandsLegal 4 = false := by decide
theorem test_wellformed_refuses_scale_257 : (Instr.bqProcess 2 257).operandsLegal 4 = false := by decide
theorem test_wellformed_refuses_region_past_store : (Instr.crcRun 3816 1).operandsLegal 4 = false := by decide
theorem test_wellformed_accepts_bounds :
    (Instr.bqProcess 4 256).operandsLegal 4 = true ∧ (Instr.crcRun 3816 0).operandsLegal 4 = true := by decide

/-! ## Decoding: every constructor, from words written out by 30_encoding.md (ENC-1 to ENC-16) -/

theorem test_decode_nop : decodeTableWord 32 0x00000000 = some .nop := by decide
theorem test_decode_bqReset : decodeTableWord 32 0x00000001 = some .bqReset := by decide
/-- ENC-3, ENC-4: VS 0x100 and 0x080 at bits 28:20, NFR 2 at bits 19:8. -/
theorem test_decode_bqProcess :
    decodeTableWord 32 0b00010000000000000000001000000010 = some (.bqProcess 2 256) ∧
      decodeTableWord 32 0x08000202 = some (.bqProcess 2 128) := by decide
theorem test_decode_setActive : decodeTableWord 32 0x00000303 = some (.setActive 3) := by decide
theorem test_decode_clearActive : decodeTableWord 32 0x00000004 = some .clearActive := by decide
theorem test_decode_profCommit : decodeTableWord 32 0x00000205 = some (.profCommit 2) := by decide
theorem test_decode_profDelete : decodeTableWord 32 0x00000306 = some (.profDelete 3) := by decide
theorem test_decode_aoStart : decodeTableWord 32 0x00000010 = some .aoStart := by decide
theorem test_decode_aoStop : decodeTableWord 32 0x00000011 = some .aoStop := by decide
theorem test_decode_aoTask : decodeTableWord 32 0x00000012 = some .aoTask := by decide
theorem test_decode_volCompute : decodeTableWord 32 0x00000020 = some .volCompute := by decide
/-- ENC-10: LEN 9 and 3800 at bits 31:20, START 16 at bits 19:8. -/
theorem test_decode_crcRun :
    decodeTableWord 32 0b00000000100100000001000000110000 = some (.crcRun 16 9) ∧
      decodeTableWord 32 0xED801030 = some (.crcRun 16 3800) := by decide
theorem test_decode_eqInit : decodeTableWord 32 0x00000031 = some .eqInit := by decide
theorem test_decode_storeSeal : decodeTableWord 32 0x00000032 = some .storeSeal := by decide

/-- ENC-12. -/
theorem test_decode_reserved_opcodes :
    ∀ w ∈ [0x07, 0x13, 0x21, 0x33, 0xFF], decodeWord (BitVec.ofNat 32 w) = .error .reservedOpcode := by decide
/-- ENC-13. -/
theorem test_decode_reserved_bits :
    ∀ w ∈ [0x00000110, 0x00010003, 0x20000202], decodeWord (BitVec.ofNat 32 w) = .error .reservedBits := by decide
theorem test_decode_short : decodeBytes [0, 0, 0] = .error .tooShort := by decide
/-- R121's examples. -/
theorem test_assembler :
    (Instr.bqProcess 2 256).asm = "BQ_PROCESS 2, 256" ∧ encode (.bqProcess 2 256) = 0x10000202 ∧
      encode (.crcRun 16 3800) = 0xED801030 := by decide +kernel

/-- The rows of spec/opcode_table.json, one per mnemonic. -/
def tableRows : List OpcodeRow :=
  [opcodeRow .nop, opcodeRow .bqReset, opcodeRow (.bqProcess 0 0), opcodeRow (.setActive 0), opcodeRow .clearActive,
    opcodeRow (.profCommit 0), opcodeRow (.profDelete 0)] ++
  [opcodeRow .aoStart, opcodeRow .aoStop, opcodeRow .aoTask, opcodeRow .volCompute, opcodeRow (.crcRun 0 0),
    opcodeRow .eqInit, opcodeRow .storeSeal]

/-- No word matches two rows. -/
theorem test_rows_disjoint :
    tableRows.Pairwise fun a b => a.pattern &&& (a.mask &&& b.mask) ≠ b.pattern &&& (a.mask &&& b.mask) := by
  decide +kernel

/-! ## One step of each command -/

/-- R143's example. -/
theorem test_nop : nextOf (exec .nop (flat 2)) = some (flat 2) := rfl

/-- BQ-15: a non-zero accumulator reads 0 after BQ_RESET. -/
theorem test_bqReset :
    (nextOf (exec .bqReset { flat 2 with bqs := (flat 2).bqs.set 0 ⟨F32.ofBits 0xBD33F2FF, F32.nan⟩ })).map
      (fun t => (t.bqsWord 0, t.bqsWord 1)) = some (0, 0) := by decide +kernel

/-- BQ-13: two filters in profile order over two frames. -/
theorem test_bqProcess_order :
    (nextOf (exec (.bqProcess 2 256)
      { flat 2 with
        store := (((flatStore.wr8 32 2).wr32 36 0x3F000000).wr32 76 0x3F800000).wr16 104 0x0101
        work := [0x00400000, 0xFFC00000, 0, 0] })).map
      (fun t => t.work.map BitVec.toInt) = some [0, 0, 1179315, -1179315] := by decide +kernel

/-- BQ-17: four frames of an impulse through a low-pass filter, and the state it leaves (L3-2 steps 12, 13). -/
theorem test_bqProcess_lowpass :
    (nextOf (exec (.bqProcess 4 256)
      { flat 4 with
        store := ((((((flatStore.wr32 36 0x3E800000).wr32 40 0x3F000000).wr32 44 0x3E800000).wr32 48 0xBF000000).wr32 52
          0x3E800000))
        work := [0x007FFFFF, 0, 0, 0, 0, 0, 0, 0] })).map
      (fun t => (t.work.map BitVec.toInt, t.bqsWord 0, t.bqsWord 1)) =
      some ([1179315, 0, 2948287, 0, 2358630, 0, 442243, 0], 0xBD33F2FF, 0xBC57F066) := by decide +kernel

/-- L3-1 step 13: slot 4 is empty, the selection is kept. -/
theorem test_setActive_empty :
    (nextOf (exec (.setActive 4) (flat 2))).map (fun t => (t.active, t.cmdErr)) = some (some 0, true) := by
  decide +kernel

/-- L3-1 step 12. -/
theorem test_setActive :
    (nextOf (exec (.setActive 0) { flat 2 with active := none })).map (fun t => (t.active, t.cmdErr)) =
      some (some 0, false) := by decide +kernel

/-- R164's example. -/
theorem test_clearActive :
    (nextOf (exec .clearActive { flat 2 with active := some 3 })).map (fun t => t.readReply 0x018 .word) =
      some (.data 0xFF) := by decide +kernel

/-- R165's example: slot 2 "Bass" with count 12, the only non-empty slot. -/
theorem test_profCommit :
    (nextOf (exec (.profCommit 2) { flat 2 with
      store := (((Memory.mk []).wr32 776 0x73736142).wr8 791 0x21).wr8 792 12 })).map
      (fun t => (t.store.rd8 791, t.store.rd8 792, t.store.rd8 5)) = some (0, 10, 1) := by decide +kernel

/-- R166's example, for slot 0: zeroed, not counted, deselected. -/
theorem test_profDelete :
    (nextOf (exec (.profDelete 0) { flat 2 with store := flatStore.wr8 5 1 })).map
      (fun t => (t.store.cells, t.active)) = some ([], none) := by decide +kernel

/-- SM-4. -/
theorem test_aoStart :
    (nextOf (exec .aoStart { streaming [1, 2] false false with buf := [1, 2, 3, 4, 5, 6, 7, 8] })).map
      (fun t => (t.statusWord, t.buf, t.heldL, t.fifo)) = some (0x11, [0, 0, 0, 0, 0, 0, 0, 0], 0, [1, 2]) := by
  decide +kernel

/-- L3-4 step 2: from `STATUS` 0x383E. -/
theorem test_aoStop :
    (nextOf (exec .aoStop { streaming [] true true with late := true, lastFill := .hold, dmaPos := 1 })).map
      (fun t => (t.statusWord, t.dmaPos)) = some (0x3810, 0) := by decide +kernel

/-- L3-3 step 7: the prebuffer transition. -/
theorem test_aoTask_prebuffer :
    (nextOf (exec .aoTask { prebuffering 24 fourFrames with nf0 := true, nf1 := true })).map
      (fun t => (t.buf.map BitVec.toInt, t.heldL.toInt, t.volScale, t.fullCnt, t.statusWord, t.avail)) =
      some ([562, -562, 1124, -1124, 1687, -1687, 2249, -2249], 2249, 256, 2, 0x1032, 0) := by decide +kernel

/-- L3-3 steps 9, 10: a partial fill of one frame, 3 bytes left. -/
theorem test_aoTask_partial :
    (nextOf (exec .aoTask (streaming [0x88, 0x13, 0x00, 0x78, 0xEC, 0xFF, 0x70, 0x17, 0x00] true false))).map
      (fun t => ((t.buf.take 4).map BitVec.toInt, t.heldR.toInt, t.partCnt, t.fifo, t.statusWord)) =
      some ([2811, -2811, 2811, -2811], -2811, 1, [0x70, 0x17, 0x00], 0x2032) := by decide +kernel

/-- VOL-2. -/
theorem test_volCompute :
    (nextOf (exec .volCompute { flat 2 with hostVol := -10, pwrTier := 1, localAtt := 50 })).map (·.volScale) =
      some 40 := by decide +kernel

/-- CRC-1, as in R201's example. -/
theorem test_crcRun :
    (nextOf (exec (.crcRun 16 9) digits)).map (·.crcResult) = some 0xCBF43926 := by decide +kernel

/-- CRC-5. -/
theorem test_crc_empty_slot : crc32 (List.replicate 380 0) = 0x6B38F371 := by decide +kernel

/-- INIT-3 and R203: version 2 is reported as VERSION, and the empty store has the right magic and version. -/
theorem test_eqInit_version :
    (nextOf (exec .eqInit { digits with store := digits.store.wr8 4 2, active := some 0 })).map
      (fun t => (t.reason, t.storeValid, t.active, t.store.rd32 0, t.store.rd8 4, t.store.rd8 16)) =
      some (.version, false, none, 0xA5A50001, 1, 0) := by decide +kernel

/-- R203: a sealed store is valid and kept. -/
theorem test_eqInit_valid :
    (nextOf (exec .eqInit sealedDigits)).map (fun t => (t.reason, t.storeValid, t.store)) =
      some (.none, true, sealedDigits.store) := by decide +kernel

/-- R205 with CRC-1: bytes 8 to 11 are 26 39 F4 CB. -/
theorem test_storeSeal :
    (nextOf (exec .storeSeal digits)).map (fun t => t.store.bytes 8 4) = some [0x26, 0x39, 0xF4, 0xCB] := by
  decide +kernel

/-! ## The bus, the other agents and reset -/

/-- BF-2, BF-5, BF-7, BF-8, BF-11. -/
theorem test_bus_reads :
    (flat 2).readReply 0x004 .half = .busFault 0x004 ∧ (flat 2).readReply 0x040 .word = .data 0 ∧
      (flat 2).readReply 0x1010 .half = .data 0x6C46 ∧ (flat 2).readReply 0x1EE8 .word = .data 0 ∧
      (flat 2).readReply 0x2020 .word = .data 0 := by decide +kernel

/-- BF-12 and BF-14. -/
theorem test_bus_writes_work :
    (nextOf (hostAccess (.write 0x3004 .word 0xFFFFFFFF) (flat 2))).map (·.work) = some [0, 0xFFFFFFFF, 0, 0] ∧
      (nextOf (hostAccess (.write 0x3000 .byte 1) (flat 2))).map (fun t => (t.work, t.reply)) =
        some ([0, 0, 0, 0], .busFault 0x3000) := by decide +kernel

/-- REG-2 and REG-4. -/
theorem test_register_legalisation :
    ((flat 2).writeCtrl 0xFFFFFFFF).ctrlWord = 0x39 ∧ ((flat 2).writeHostVol 0x00010005).hostVol = 0 ∧
      ((flat 2).writeHostVol 0x0000FFC0).hostVol = -60 ∧ ((flat 2).writeLocalAtt 0x000001FF).localAtt = 100 := by
  decide +kernel

/-- L3-4 step 1: the DMA begins half 0 late and replays it. -/
theorem test_dma_late :
    (dmaStep { streaming [] true true with buf := [0xAFB, 0xFFFFF505, 0, 0, 0, 0, 0, 0], lastFill := .hold }).statusWord
      = 0x383E := by decide +kernel

/-- PK-3, PK-5, PK-8. -/
theorem test_sample_formats :
    (unpack [0xFF, 0xFF, 0x7F, 0x00, 0x00, 0x80, 0xFF, 0xFF, 0xFF]).map BitVec.toInt = [8388607, -8388608, -1] ∧
      pack .lj32 0xFFFFFDCE = 0xFFFDCE00 ∧
      (sourceWords { flat 2 with swapLr := true, fifo := fourFrames } 1).map BitVec.toInt = [-1000, 1000] := by
  decide +kernel

/-- SM-7 and SM-8. -/
theorem test_irq_prebuffer :
    ({ prebuffering 24 fourFrames with irqEn := true, nf0 := true } : State).irq = true ∧
      ({ prebuffering 24 [] with irqEn := true, nf0 := true } : State).irq = false := by decide +kernel

/-- R340: `STATUS` after reset, for the open parameters; R11: 1 is exact, and 1 + 2^-24 rounds to even. -/
theorem test_reset_status : State.reset.statusWord = 0x10 := by decide +kernel
theorem test_round_to_even :
    F32.fadd (F32.ofBits 0x3F800000) (F32.ofBits 0x33800000) = F32.ofBits 0x3F800000 ∧
      F32.fadd (F32.ofBits 0x3F800001) (F32.ofBits 0x33800000) = F32.ofBits 0x3F800002 := by decide +kernel

/-- Overflow begins at the midpoint between the largest finite value and 2^128 (R11). -/
theorem test_overflow_midpoint :
    F32.fadd (F32.ofBits 0x7F7FFFFF) (F32.ofBits 0x73000000) = .inf false ∧
      F32.fadd (F32.ofBits 0x7F7FFFFF) (F32.ofBits 0x72FFFFFF) = F32.ofBits 0x7F7FFFFF := by decide +kernel

/-! ## Witnesses: a state and operands that meet the hypotheses of each obligation -/

theorem inv_flat : (flat 2).Inv := inv_of_check (by decide +kernel)
theorem inv_flat4 : (flat 4).Inv := inv_of_check (by decide +kernel)
theorem inv_digits : digits.Inv := inv_of_check (by decide +kernel)
theorem inv_sealed : sealedDigits.Inv := inv_of_check (by decide +kernel)

theorem witness_DecodeEncodeAgree : decodeWord 0x10000202 = .ok (.bqProcess 2 256) := by decide

theorem witness_ReservedOpcodeRejected :
    ∀ n ∈ [0x07, 0x0F, 0x13, 0x1F, 0x21, 0x2F, 0x33, 0xFFFFFFFF],
      let op := (BitVec.ofNat 32 n).toNat % 2 ^ 8
      (0x07 ≤ op ∧ op ≤ 0x0F) ∨ (0x13 ≤ op ∧ op ≤ 0x1F) ∨ (0x21 ≤ op ∧ op ≤ 0x2F) ∨ (0x33 ≤ op ∧ op ≤ 0xFF) := by
  decide +kernel

/-- The format hypotheses of the command statements: the opcode with a non-zero `RSV`. -/
theorem witness_Format_commands :
    ((0x110 : Word).toNat % 2 ^ 8 = 0x10 ∧ (0x110 : Word).toNat / 2 ^ 8 ≠ 0) ∧
      ((0x10003 : Word).toNat % 2 ^ 8 = 0x03 ∧ (0x10003 : Word).toNat / 2 ^ 16 ≠ 0) ∧
      ((0x20000202 : Word).toNat % 2 ^ 8 = 0x02 ∧ (0x20000202 : Word).toNat / 2 ^ 29 ≠ 0) := by decide

theorem witness_StepRunsIssuedCommand :
    (given (flat 2) (.host (.read 0x4001 .half))).inputs = [.host (.read 0x4001 .half)] ∧
    (given (flat 2) (wr32 0 0x10000302)).inputs = [.host (.write 0 .word 0x10000302)] ∧
      decodeWord 0x10000302 = .ok (.bqProcess 3 256) ∧
      (Instr.bqProcess 3 256).operandsLegal (flat 2).params.halfFrames = false ∧
      decodeWord 0x00000007 = .error .reservedOpcode ∧ AccessSize.half ≠ .word ∧
      decodeTableWord 32 0x12 = some .aoTask := by decide

theorem witness_InvariantKeptByStep :
    (given (streaming fourFrames true false) (cmd .aoTask)).Inv ∧
      ∃ t, step (given (streaming fourFrames true false) (cmd .aoTask)) = .next t :=
  ⟨inv_of_check (by decide +kernel), _, rfl⟩

theorem witness_ReadsAfterReset :
    (given (flat 2) .reset).next .reset ∧
      (∃ t, step (given (flat 2) .reset) = .next t ∧ 7 < 4 * t.params.halfFrames ∧ 3 < 2 * t.params.halfFrames) ∧
      (7 : Nat) ≤ 14 ∧ (14 : Nat) ≤ 14 ∧ (39 : Nat) < 40 :=
  ⟨rfl, ⟨_, rfl, by decide, by decide⟩, by decide⟩

/-- One transition of each kind, and the step that makes it. -/
theorem witness_PipelineStateMachine :
    (∃ t, step (given (flat 2) (cmd .aoStart)) = .next t ∧ t.pipe = .prebuf ∧ (flat 2).pipe = .stopped) ∧
      (let s := given (prebuffering 24 fourFrames) (cmd .aoTask)
       s.issues .aoTask ∧ s.pipe = .prebuf ∧ s.params.prebufBytes ≤ s.avail ∧
         ∃ t, step s = .next t ∧ t.pipe = .streaming) ∧
      (∃ t, step (given (streaming [] true true) (cmd .aoStop)) = .next t ∧ t.pipe = .stopped) ∧
      ∃ t, step (given (streaming [] true true) .reset) = .next t ∧ t.pipe = .stopped :=
  ⟨⟨_, rfl, rfl, rfl⟩, ⟨rfl, rfl, by decide +kernel, _, rfl, by decide +kernel⟩, ⟨_, rfl, rfl⟩, _, rfl, rfl⟩

theorem witness_NeedsFillWriters :
    (∃ t, step (given { flat 2 with dmaPos := 1 } .dma) = .next t ∧ (flat 2).nf 0 = false ∧ t.nf 0 = true) ∧
      (∃ t, step (given { flat 2 with dmaPos := 3 } .dma) = .next t ∧ (flat 2).nf 1 = false ∧ t.nf 1 = true) ∧
      ∃ t, step (given (streaming [] true true) (cmd .aoTask)) = .next t ∧
        (streaming [] true true).nf 1 = true ∧ t.nf 1 = false :=
  ⟨⟨_, rfl, rfl, by decide +kernel⟩, ⟨_, rfl, rfl, by decide +kernel⟩, _, rfl, rfl, by decide +kernel⟩

theorem witness_EveryStepCompletesAndRejectionTable :
    (∀ i ∈ [Instr.bqProcess 3 0, .bqProcess 0 257, .crcRun 3816 1, .setActive 10, .setActive 1, .profCommit 10,
      .profDelete 255], rejects (flat 2) i = true) ∧
      ∀ i ∈ [Instr.bqProcess 2 256, .crcRun 3816 0, .setActive 0, .profCommit 9, .profDelete 0, .eqInit],
        rejects (flat 2) i = false := by decide +kernel

theorem witness_CmdErrSetOnlyByRejection :
    (flat 2).cmdErr = false ∧
      (∃ t, step (given (flat 2) (wr32 0 0x7)) = .next t ∧ t.cmdErr = true) ∧
      ∃ t, step (given (flat 2) (cmd (.profCommit 10))) = .next t ∧ t.cmdErr = true :=
  ⟨rfl, ⟨_, rfl, rfl⟩, _, rfl, rfl⟩

theorem witness_LateSetExactlyByDma :
    (streaming [] true true).Inv ∧ (streaming [] true true).late = false ∧
      (∃ t, step (given (streaming [] true true) .dma) = .next t ∧ t.late = true) ∧
      (∃ t, step (given { streaming [] true true with dmaPos := 2 } .dma) = .next t ∧ t.late = true) ∧
      ∃ t, step (given { streaming [] true true with dmaPos := 1 } .dma) = .next t ∧ t.late = false :=
  ⟨inv_of_check (by decide +kernel), rfl, ⟨_, rfl, by decide +kernel⟩, ⟨_, rfl, by decide +kernel⟩, _, rfl,
    by decide +kernel⟩

theorem witness_StickyBitsClearedOnlyByHost :
    let s := given { flat 2 with cmdErr := true, late := true } (wr32 4 0xC00)
    s.cmdErr = true ∧ s.late = true ∧ ∃ t, step s = .next t ∧ t.cmdErr = false ∧ t.late = false :=
  ⟨rfl, rfl, _, rfl, rfl, rfl⟩

theorem witness_ControlChangesOnlyByHost :
    (∃ t, step (given (flat 2) (wr32 0x008 4)) = .next t ∧ t.pwrTier ≠ (flat 2).pwrTier) ∧
      (∃ t, step (given (flat 2) (wr32 0x00C 0xFFFF)) = .next t ∧ t.hostVol ≠ (flat 2).hostVol) ∧
      ∃ t, step (given (flat 2) (wr32 0x010 1)) = .next t ∧ t.localAtt ≠ (flat 2).localAtt :=
  ⟨⟨_, rfl, by decide +kernel⟩, ⟨_, rfl, by decide +kernel⟩, _, rfl, by decide +kernel⟩

theorem witness_StoreBufAndCounterWriters :
    (∃ t, step (given (flat 2) (wr8 0x1EE7 1)) = .next t ∧ t.store ≠ (flat 2).store) ∧
      (∃ t, step (given (flat 2) (wr32 0x1000 1)) = .next t ∧ t.store ≠ (flat 2).store) ∧
      ∃ t, step (given (streaming [] true true) (cmd .aoTask)) = .next t ∧ t.buf ≠ (streaming [] true true).buf ∧
        t.holdCnt ≠ (streaming [] true true).holdCnt :=
  ⟨⟨_, rfl, by decide +kernel⟩, ⟨_, rfl, by decide +kernel⟩, _, rfl, by decide +kernel, by decide +kernel⟩

theorem witness_TraceGrowsOnlyByDma :
    (flat 2).Inv ∧ (given (flat 2) .dma).next .dma ∧ (given (flat 2) .reset).next .reset ∧
      ¬ (given (flat 2) (.src 1)).next .dma ∧ ¬ (given (flat 2) (.src 1)).next .reset :=
  ⟨inv_flat, rfl, rfl, by decide, by decide⟩

theorem witness_BusFaultExactly :
    (flat 2).params.wf ∧
      (∀ p ∈ [(0x1001, 2), (0x7FFE, 4)], p.1 % p.2 ≠ 0) ∧
      (∀ a ∈ [0x0, 0xFFF, 0x2000, 0x201F, 0x3000, 0x300F, 0x4000, 0x409F],
        a < 0x1000 ∨ (0x2000 ≤ a ∧ a < 0x2000 + 16 * (flat 2).params.halfFrames) ∨
          (0x3000 ≤ a ∧ a < 0x3000 + 8 * (flat 2).params.halfFrames) ∨ (0x4000 ≤ a ∧ a < 0x40A0)) ∧
      ∀ a ∈ [0x1000, 0x1EE7, 0x1FFF, 0x2020, 0x3010, 0x40A0, 0x7FFF],
        ¬ (a < 0x1000 ∨ (0x2000 ≤ a ∧ a < 0x2000 + 16 * (flat 2).params.halfFrames) ∨
          (0x3000 ≤ a ∧ a < 0x3000 + 8 * (flat 2).params.halfFrames) ∨ (0x4000 ≤ a ∧ a < 0x40A0)) :=
  ⟨inv_flat.params, by decide, by decide, by decide⟩

theorem witness_ReservedAndUnmappedOffsets :
    (flat 2).params.wf ∧
      ∀ a ∈ [0x3C, 0xFFC, 0x1EE8, 0x1FFC, 0x2020, 0x2FFC, 0x3010, 0x3FFC, 0x40A0, 0x7FFC],
        (0x3C ≤ a ∧ a < 0x1000) ∨ (0x1EE8 ≤ a ∧ a < 0x2000) ∨
          (0x2000 + 16 * (flat 2).params.halfFrames ≤ a ∧ a < 0x3000) ∨
          (0x3000 + 8 * (flat 2).params.halfFrames ≤ a ∧ a < 0x4000) ∨ 0x40A0 ≤ a :=
  ⟨inv_flat.params, by decide⟩

theorem witness_StoreWindowAccess :
    (flat 2).store.wf ∧
      (∀ p ∈ [(0x1000, 4), (0x1EE4, 4), (0x1EE6, 2), (0x1EE7, 1)],
        0x1000 ≤ p.1 ∧ p.1 < 0x1000 + 3816 ∧ p.1 % p.2 = 0) ∧
      ∀ p ∈ [(0x1001, 2), (0x1EE7, 2), (0x1EE6, 4)], 0x1000 ≤ p.1 ∧ p.1 < 0x1000 + 3816 ∧ p.1 % p.2 ≠ 0 :=
  ⟨inv_flat.store, by decide, by decide⟩

theorem witness_BufAndWorkWindows :
    (flat 2).Inv ∧ 7 < 4 * (flat 2).params.halfFrames ∧ 3 < 2 * (flat 2).params.halfFrames ∧
      (AccessSize.byte ≠ .word ∧ AccessSize.half ≠ .word) ∧
      ∀ a ∈ [0x2000, 0x201F], 0x2000 ≤ a ∧ a < 0x2000 + 16 * (flat 2).params.halfFrames :=
  ⟨inv_flat, by decide, by decide, by decide, by decide⟩

theorem witness_BqsWindowShowsState :
    let s := { flat 2 with bqs := (flat 2).bqs.set 19 ⟨F32.ofBits 0x3B8FF599, F32.nan⟩ }
    s.Inv ∧ (getDelay s.bqs 9 1).s2 = F32.nan ∧ (getDelay s.bqs 9 1).s1 = F32.ofBits 0x3B8FF599 ∧
      AccessSize.half ≠ .word ∧ ∀ a ∈ [0x4000, 0x409F], 0x4000 ≤ a ∧ a < 0x40A0 :=
  ⟨inv_of_check (by decide +kernel), by decide +kernel, by decide +kernel, by decide, by decide⟩

theorem witness_RegisterReadsAndReadOnlyWrites :
    ((14, 0) : Nat × Word) ∈ [((14, BitVec.ofNat 32 (flat 2).dmaPos) : Nat × Word)] ∧ (flat 2).fifo.length < 2 ^ 32 ∧
      (5 ≤ 5 ∧ 5 ≤ 14) ∧ 5 ≤ 14 ∧ 14 ≤ 14 := by decide +kernel

theorem witness_VolumeWritesClamped :
    (flat 2).params.wf ∧ (flat 2).params.volDbMin = -60 ∧ (0x8000 : Word).toNat % 2 ^ 16 = 2 ^ 15 ∧
      (0x7FFF : Word).toNat % 2 ^ 16 < 2 ^ 15 ∧ (100 : Word).toNat % 2 ^ 8 ≤ 100 ∧ ¬ (101 : Word).toNat % 2 ^ 8 ≤ 100 :=
  ⟨inv_flat.params, rfl, by decide, by decide, by decide, by decide⟩

theorem witness_SetActiveSelectsNonEmptySlot :
    ((0 : BitVec 8).toNat = (0 : Fin 10).val ∧ (flat 2).store.rd8 16 ≠ 0 ∧ (flat 2).store.rd8 (16 + 16) ≠ 0) ∧
      ((9 : BitVec 8).toNat = (9 : Fin 10).val ∧ (flat 2).store.rd8 (16 + 380 * 9) = 0) ∧
      10 ≤ (10 : BitVec 8).toNat := by decide +kernel

theorem witness_ProfCommitTerminatesAndRecounts :
    (flat 2).store.wf ∧ (9 : BitVec 8).toNat = (9 : Fin 10).val ∧ 10 ≤ (10 : BitVec 8).toNat :=
  ⟨inv_flat.store, rfl, by decide⟩

theorem witness_ProfDeleteZeroesSlot :
    (flat 2).store.wf ∧ (0 : BitVec 8).toNat = (0 : Fin 10).val ∧ (flat 2).active = some 0 ∧
      10 ≤ (255 : BitVec 8).toNat := ⟨inv_flat.store, rfl, rfl, by decide⟩

theorem witness_OnlyResetsZeroFilterState :
    (∃ id, Instr.setActive 3 = .setActive id) ∧ Instr.aoStart = .aoStart := ⟨⟨3, rfl⟩, rfl⟩

theorem witness_CrcRunComputesRegionCrc :
    (3816 : BitVec 12).toNat + (0 : BitVec 12).toNat ≤ 3816 ∧ (16 : BitVec 12).toNat + (3800 : BitVec 12).toNat ≤ 3816 ∧
      3816 < (3816 : BitVec 12).toNat + (1 : BitVec 12).toNat := by decide

/-- Every verdict is met: the four stores of INIT-1, INIT-3, INIT-4 and a sealed one. -/
theorem witness_EqInitValidatesStore :
    digits.Inv ∧ storeVerdict digits.params (Memory.mk []) = .magic ∧
      storeVerdict digits.params (digits.store.wr8 4 2) = .version ∧ storeVerdict digits.params digits.store = .crc ∧
      storeVerdict digits.params sealedDigits.store = .none :=
  ⟨inv_digits, by decide +kernel, by decide +kernel, by decide +kernel, by decide +kernel⟩

theorem witness_StoreSealWritesChecksum : digits.Inv := inv_digits

theorem witness_EqInitAcceptsEmptyAndSealedStores :
    digits.Inv ∧ (∃ t, exec .eqInit digits = .next t) ∧ digits.store.rd32 0 = digits.params.storeMagic ∧
      digits.store.rd8 4 = digits.params.storeVersion ∧ ∃ t, exec .storeSeal digits = .next t :=
  ⟨inv_digits, ⟨_, rfl⟩, by decide +kernel, by decide +kernel, _, rfl⟩

theorem witness_SingleByteCorruptionCaught :
    sealedDigits.Inv ∧ storeVerdict sealedDigits.params sealedDigits.store = .none ∧
      (∀ i ∈ [16, 24], sealedDigits.params.crcLo ≤ i ∧ i < sealedDigits.params.crcHi) ∧
      (0x30 : Byte) ≠ sealedDigits.store.rd8 16 :=
  ⟨inv_sealed, by decide +kernel, by decide, by decide +kernel⟩

theorem witness_VolComputeLatchesScale : (flat 2).Inv := inv_flat

theorem witness_VolumeCurvesAndBounds :
    (6 : Nat) ≤ 7 ∧ (100 : Nat) ≤ 100 ∧ ({ flat 2 with pwrTier := 2, localAtt := 100 } : State).Inv ∧
      ({ flat 2 with pwrTier := 2, localAtt := 100 } : State).volscale = 256 :=
  ⟨by decide, by decide, inv_of_check (by decide +kernel), by decide +kernel⟩

theorem witness_BqProcessFrame :
    ((flat 2).params.halfFrames < (3 : BitVec 12).toNat ∧ 256 < (257 : BitVec 9).toNat) ∧
      ((2 : BitVec 12).toNat ≤ (flat 2).params.halfFrames ∧ (256 : BitVec 9).toNat ≤ 256) ∧
      (∀ p : Fin 10, ({ flat 2 with active := some 1 } : State).active = some p →
        (flat 2).store.rd8 (16 + 380 * p.val) = 0 ∨ (flat 2).store.rd8 (16 + 380 * p.val + 16) = 0) ∧
      (flat 2).Inv ∧ (flat 2).validActive = some 0 ∧ ((flat 2).store.rd8 (16 + 16)).toNat ≤ (1 : Fin 10).val :=
  ⟨by decide, by decide, by decide +kernel, inv_flat, by decide +kernel, by decide +kernel⟩

theorem witness_BqProcessFiltersOff :
    let s := { flat 2 with store := flatStore.wr8 69 0 }
    s.Inv ∧ s.validActive = some 0 ∧
      ∀ k : Fin 10, s.store.rd8 (16 + 20 + 36 * k.val + 33) = 0 ∨ s.store.rd8 (16 + 20 + 36 * k.val + 32) = 0 :=
  ⟨inv_of_check (by decide +kernel), by decide +kernel, by decide +kernel⟩

/-- A profile of two filters of which both run (BQ-13), and the first and last frame counts. -/
theorem witness_BqProcessComputesCascade :
    (let s := { flat 2 with store := ((flatStore.wr8 32 2).wr32 76 0x3F800000).wr16 104 0x0101 }
     s.Inv ∧ s.active = some 0 ∧ s.store.rd8 16 ≠ 0 ∧ s.store.rd8 (16 + 16) = 2 ∧
       ∀ k ∈ [0, 1], s.store.rd8 (16 + 20 + 36 * k + 33) ≠ 0 ∧ s.store.rd8 (16 + 20 + 36 * k + 32) ≠ 0) ∧
      (256 : BitVec 9).toNat ≤ 256 ∧ 0 + 1 ≤ (flat 2).params.halfFrames ∧ 1 + 1 ≤ (flat 2).params.halfFrames :=
  ⟨⟨inv_of_check (by decide +kernel), rfl, by decide +kernel, by decide +kernel, by decide +kernel⟩, by decide, by decide,
    by decide⟩

/-- Two states that agree on channel 0 and differ on channel 1. -/
theorem witness_ChannelsIndependent :
    let s := { flat 2 with work := [1, 2, 3, 4] }
    let t := { flat 2 with work := [1, 20, 3, 40], bqs := (flat 2).bqs.set 1 ⟨F32.nan, F32.nan⟩ }
    s.Inv ∧ t.Inv ∧ sameChannel 0 s t ∧
      channelWords 0 (s.work.take (2 * (2 : BitVec 12).toNat)) = channelWords 0 (t.work.take (2 * (2 : BitVec 12).toNat)) :=
  ⟨inv_of_check (by decide +kernel), inv_of_check (by decide +kernel), ⟨rfl, rfl, rfl, by decide +kernel⟩,
    by decide +kernel⟩

theorem witness_MutedCascadeAtRestIsSilent :
    (flat 2).Inv ∧ (2 : BitVec 12).toNat ≤ (flat 2).params.halfFrames ∧ (flat 2).validActive = some 0 ∧
      ∀ i : Fin 20, ((flat 2).bqs.get i).s1.silent = true ∧ ((flat 2).bqs.get i).s2.silent = true :=
  ⟨inv_flat, by decide, by decide +kernel, by decide +kernel⟩

theorem witness_BinaryValuesAndPatterns :
    (∀ x ∈ [F32.nan, .inf true, .fin true 0 1, .fin false 253 16777215], x.canonical = true) ∧
      F32.ofBits 0x7F7FFFFF ≠ .nan ∧ F32.ofBits 0x80000001 ≠ .nan ∧ (8388607 : Nat) < 2 ^ 23 ∧
      ((0xFF800000 : Word).toNat / 2 ^ 23 % 2 ^ 8 = 255 ∧ (0xFF800000 : Word).toNat % 2 ^ 23 = 0) ∧
      ((0x7F800001 : Word).toNat / 2 ^ 23 % 2 ^ 8 = 255 ∧ (0x7F800001 : Word).toNat % 2 ^ 23 ≠ 0) ∧
      ∀ n ∈ [0x00000001, 0x007FFFFF, 0x00800000, 0xFF7FFFFF], (BitVec.ofNat 32 n).toNat / 2 ^ 23 % 2 ^ 8 ≠ 255 := by decide +kernel

/-- A sum that rounds, a sum that overflows, a subnormal product, and a sum of opposite values. -/
theorem witness_ArithmeticRoundsToNearestEven :
    (∀ p ∈ [(F32.ofBits 0x3F800001, F32.ofBits 0x33800000), (F32.ofBits 0x7F7FFFFF, F32.ofBits 0x73000000),
        (F32.ofBits 0x00800001, F32.ofBits 0x3F000000), (F32.ofBits 0x3F800000, F32.ofBits 0xBF800000)],
      p.1.canonical = true ∧ p.2.canonical = true ∧ p.1.finite = true ∧ p.2.finite = true) := by decide +kernel

/-- Values at and beside both bounds of `f2s24`, and the ends of the exact range of `i2f`. -/
theorem witness_SampleConversionExact :
    ((F32.fin false 149 8388607).finite = true ∧ (8388607 : ℚ) ≤ (F32.fin false 149 8388607).value) ∧
      ((F32.fin true 150 8388608).finite = true ∧ (F32.fin true 150 8388608).value ≤ -8388608) ∧
      ((F32.fin true 148 16777215).finite = true ∧ -8388608 < (F32.fin true 148 16777215).value ∧
        (F32.fin true 148 16777215).value < 8388607) ∧
      (-(2 ^ 24) ≤ (-16777216 : Int) ∧ (16777216 : Int) ≤ 2 ^ 24) ∧
      (-8388608 ≤ (-8388608 : Int) ∧ (8388607 : Int) ≤ 8388607) := by
  norm_num [F32.value, F32.finite]

theorem witness_SampleFormats :
    fourFrames.length = 6 * 4 ∧ 7 < 2 * 4 ∧ 6 * 4 ≤ (prebuffering 24 fourFrames).avail ∧ (3 : Nat) < 4 ∧
      inSampleRange 0x007FFFFF ∧ inSampleRange 0xFF800000 := by decide +kernel

theorem witness_FillEngineIsBqProcessOrLegacy :
    (flat 2).Inv ∧ [1, 2, 3, (4 : Word)].length = 2 * 2 ∧ 2 ≤ (flat 2).params.halfFrames ∧
      ((flat 2).active = some 0 ∧ (flat 2).store.rd8 16 ≠ 0 ∧ (flat 2).store.rd8 (16 + 16) ≠ 0) ∧
      ({ flat 2 with active := some 9 } : State).Inv ∧ (flat 2).store.rd8 (16 + 380 * 9) = 0 :=
  ⟨inv_flat, rfl, by decide, by decide +kernel, inv_of_check (by decide +kernel), by decide +kernel⟩

theorem witness_AoTaskIdle :
    (flat 2).pipe = .stopped ∧
      (let s := prebuffering 24 (fourFrames.take 23); s.pipe = .prebuf ∧ s.avail < s.params.prebufBytes) ∧
      (let s := streaming [] false false; s.pipe = .streaming ∧ s.nf0 = false ∧ s.nf1 = false) := by decide +kernel

/-- One half's data with a threshold of one half, and two halves' data. -/
theorem witness_AoTaskPrebufferTransition :
    (let s := prebuffering 12 (fourFrames.take 12)
     s.Inv ∧ s.pipe = .prebuf ∧ s.params.prebufBytes ≤ s.avail ∧ ¬ 2 * s.params.halfBytes ≤ s.avail) ∧
      (let s := prebuffering 24 fourFrames
       s.Inv ∧ s.pipe = .prebuf ∧ s.params.prebufBytes ≤ s.avail ∧ 2 * s.params.halfBytes ≤ s.avail) :=
  ⟨⟨inv_of_check (by decide +kernel), rfl, by decide +kernel, by decide +kernel⟩,
    inv_of_check (by decide +kernel), rfl, by decide +kernel, by decide +kernel⟩

/-- PL-1 to PL-4: 12, 11, 6 and 5 bytes. -/
theorem witness_AoTaskServicesFlaggedHalf :
    (∀ n ∈ [12, 11, 6, 5], invCheck (streaming (fourFrames.take n) true false) = true ∧
      (streaming (fourFrames.take n) true false).pipe = .streaming ∧
      (streaming (fourFrames.take n) true false).nf 0 = true ∧
      (streaming (fourFrames.take n) true false).nf (0 + 1) = false ∧
      (streaming (fourFrames.take n) true false).avail = n) ∧
      (streaming [] false true).nf 1 = true ∧ (streaming [] false true).nf (1 + 1) = false := by decide +kernel

theorem witness_AoTaskServicesHalvesInOrder :
    (streaming fourFrames true true).pipe = .streaming ∧ (streaming fourFrames true true).nf0 = true ∧
      (streaming fourFrames true true).nf1 = true := ⟨rfl, rfl, rfl⟩

theorem witness_InterruptLevel :
    (∃ t, exec .aoStop (streaming [] true true) = .next t) ∧
      (∃ t, exec .aoTask (streaming [] true true) = .next t ∧ (streaming [] true true).pipe = .streaming) ∧
      ∃ t, exec .aoTask (prebuffering 24 fourFrames) = .next t ∧
        (prebuffering 24 fourFrames).params.prebufBytes ≤ (prebuffering 24 fourFrames).avail :=
  ⟨⟨_, rfl⟩, ⟨_, rfl, rfl⟩, _, rfl, by decide +kernel⟩

theorem witness_DmaStepEffect :
    (∀ f ∈ [0, 1, 2, 3], invCheck (given { streaming [] true true with dmaPos := f } .dma) = true) ∧
      (given (streaming [] true true) .dma).next .dma := by decide +kernel

theorem witness_DmaLapPlaysBuffer :
    let s := { streaming [] true true with inputs := List.replicate 4 Input.dma ++ [Input.src 1] }
    s.Inv ∧ s.dmaPos = 0 ∧ s.inputs = List.replicate (2 * s.params.halfFrames) Input.dma ++ [Input.src 1] :=
  ⟨inv_of_check (by decide +kernel), rfl, rfl⟩

/-- SM-9 with a FIFO of 24 bytes. -/
theorem witness_SrcStepQueuesOrDrops :
    (given (flat 2) (.src 7)).inputs = [.src 7] ∧ (flat 2).fifo.length < (flat 2).params.srcCap ∧
      ({ testParams 2 24 3816 with srcCap := 24 } : Config.Params).wf ∧
      ({ testParams 2 24 3816 with srcCap := 24 } : Config.Params).srcCap ≤ fourFrames.length := by decide +kernel

end Sys2Proof.Tests
end

section
/-! PROOFS. A step on a known input, and the command write: the terms in which a step's claims are proved. -/

namespace Sys2Proof.Machine

open Sys2Proof

/-- A listed input is the one the step performs, used up. -/
theorem step_of_inputs {s : State} {i : Input} {rest : List Input} (h : s.inputs = i :: rest) :
    step s = agentStep i { s with inputs := rest } := by
  unfold step nextInput
  rw [h]

/-- A 32-bit write to `CMD` issues its word (40_command.md R140). -/
theorem hostWrite_cmd (w : Word) (s : State) : hostWrite 0 .word w s = issue w (s.replied .ack) := by
  unfold hostWrite
  rw [target_zero]
  rfl

/-- A narrow access to `CMD` faults (20_memory.md R83). -/
theorem target_zero_narrow {size : AccessSize} (h : size ≠ .word) (hf : Nat) : target hf 0 size = .fault := by
  cases size with
  | byte => rfl
  | half => rfl
  | word => exact absurd rfl h

theorem hostWrite_cmd_narrow {size : AccessSize} (h : size ≠ .word) (w : Word) (s : State) :
    hostWrite 0 size w s = .next (s.replied (.busFault 0)) := by
  unfold hostWrite
  rw [target_zero_narrow h]

theorem issue_ok {w : Word} {i : Instr} (h : decodeWord w = .ok i) (s : State) : issue w s = exec i s := by
  unfold issue
  rw [h]

theorem issue_error {w : Word} {e : DecodeError} (h : decodeWord w = .error e) (s : State) :
    issue w s = .next s.reject := by
  unfold issue
  rw [h]

/-- Operands illegal by R116 reject the command; only BQ_PROCESS and CRC_RUN can have such operands. -/
theorem exec_illegal {i : Instr} {s : State} (h : i.operandsLegal s.params.halfFrames = false) :
    exec i s = .next s.reject := by
  cases i with
  | bqProcess nfr vs => simp [exec, execBqProcess, operandsOk, h]
  | crcRun start len => simp [exec, execCrcRun, operandsOk, h]
  | _ => cases h

/-- The bytes of a word in bus order make up the word (20_memory.md R82). -/
theorem decodeBytes_bytesOfWord (w : Word) :
    decodeBytes (bytesOfWord w) = (decodeWord w).map fun i => (i, []) := by
  have hw : wordOfBytes (w.extractLsb' 0 8) (w.extractLsb' 8 8) (w.extractLsb' 16 8) (w.extractLsb' 24 8) = w :=
    word_of_bytes w
  simp only [bytesOfWord, decodeBytes, hw]
  cases decodeWord w <;> rfl

theorem decodeWord_of_decodeTableWord {n w : Nat} {i : Instr} (h : decodeTableWord n w = some i) :
    decodeWord (tableWord n w) = .ok i := by
  unfold decodeTableWord at h
  rw [decodeBytes_bytesOfWord] at h
  cases hd : decodeWord (tableWord n w) with
  | ok j =>
    rw [hd] at h
    cases h
    rfl
  | error e =>
    rw [hd] at h
    cases h

/-- The state in which a listed `CMD` write is issued: the input used up, the write acknowledged. -/
theorem step_of_command_write {s : State} {w : Word} {rest : List Input}
    (h : s.inputs = .host (.write 0 .word w) :: rest) :
    step s = issue w { s with inputs := rest, reply := .ack } :=
  (step_of_inputs h).trans (hostWrite_cmd w _)

/-- Settles O4: a listed input is performed, and a `CMD` write decodes, rejects or faults. -/
theorem stepRunsIssuedCommand : Obligations.StepRunsIssuedCommand := by
  unfold Obligations.StepRunsIssuedCommand
  refine ⟨fun s a rest h => step_of_inputs h, fun s w size rest h => ⟨?_, ?_, ?_⟩, fun s w i hi => ?_⟩
  · rintro rfl i hi
    have hrun := (step_of_command_write h).trans (issue_ok hi _)
    exact ⟨hrun, fun hill => hrun.trans (exec_illegal hill)⟩
  · rintro rfl e he
    exact (step_of_command_write h).trans (issue_error he _)
  · exact fun hsize => (step_of_inputs h).trans (hostWrite_cmd_narrow hsize w _)
  · exact (step_of_command_write rfl).trans (issue_ok (decodeWord_of_decodeTableWord hi) _)

end Sys2Proof.Machine
end

section
/-! PROOFS. Binary32: rounding to nearest, ties to even (00_scope.md R11). A positive number is `q × 2^(e - 149)` with
`q` its exact significand at exponent `e`; `round` takes the integer nearest to `q`, and `carry` makes it a value. -/

namespace Sys2Proof.F32

open Sys2Proof Sys2Proof.Machine

/-! ## Nearest integers -/

/-- `n` is the integer nearest to `q`, the even one at a midpoint. -/
structure IsNearestNat (q : ℚ) (n : Nat) : Prop where
  close : |q - n| ≤ 1 / 2
  tie : |q - n| = 1 / 2 → n % 2 = 0

theorem isNearestNat_self (n : Nat) : IsNearestNat n n := by
  constructor <;> norm_num

theorem isNearestNat_below {f : ℚ} (q : Nat) (h0 : 0 ≤ f) (h : f < 1 / 2) : IsNearestNat (q + f) q := by
  have habs : |(q : ℚ) + f - q| = f := by rw [add_sub_cancel_left, abs_of_nonneg h0]
  constructor <;> rw [habs]
  · exact h.le
  · exact fun htie => absurd htie h.ne

theorem isNearestNat_above {f : ℚ} (q : Nat) (h : 1 / 2 < f) (h1 : f ≤ 1) : IsNearestNat (q + f) (q + 1) := by
  have habs : |(q : ℚ) + f - (q + 1 : Nat)| = 1 - f := by
    rw [abs_of_nonpos (by push_cast; linarith)]
    push_cast
    ring
  constructor <;> rw [habs]
  · linarith
  · intro htie
    linarith

theorem isNearestNat_midpoint (q : Nat) : IsNearestNat (q + 1 / 2) (q + q % 2) := by
  refine ⟨?_, fun _ => by omega⟩
  obtain h | h := Nat.mod_two_eq_zero_or_one q <;> rw [h] <;> norm_num

/-- Two different integers are at distance 1 or more, so no number is close to both. -/
theorem one_le_dist_add_dist (q : ℚ) {n : Nat} {j : ℤ} (h : j ≠ n) : 1 ≤ |q - n| + |q - j| := by
  have hsep : (1 : ℚ) ≤ |(j : ℚ) - n| := by exact_mod_cast Int.one_le_abs (sub_ne_zero.2 h)
  calc (1 : ℚ) ≤ |(j : ℚ) - n| := hsep
    _ ≤ |(j : ℚ) - q| + |q - n| := abs_sub_le _ _ _
    _ = |q - n| + |q - j| := by rw [abs_sub_comm, add_comm]

/-- No integer is closer than the nearest. -/
theorem IsNearestNat.le {q : ℚ} {n : Nat} (h : IsNearestNat q n) (j : ℤ) : |q - n| ≤ |q - j| := by
  by_cases hj : j = n
  · simp [hj]
  · linarith [h.close, one_le_dist_add_dist q hj]

/-- Only an even nearest integer has another integer as close. -/
theorem IsNearestNat.even_of_eq {q : ℚ} {n : Nat} (h : IsNearestNat q n) {j : ℤ} (hj : j ≠ n)
    (heq : |q - n| = |q - j|) : n % 2 = 0 :=
  h.tie (le_antisymm h.close (by linarith [one_le_dist_add_dist q hj]))

theorem IsNearestNat.le_of_nat_le {q : ℚ} {n k : Nat} (h : IsNearestNat q n) (hk : (k : ℚ) ≤ q) : k ≤ n := by
  have hlt : (k : ℚ) < n + 1 := by linarith [(abs_le.1 h.close).2]
  exact Nat.lt_succ_iff.1 (by exact_mod_cast hlt)

theorem IsNearestNat.le_of_le_nat {q : ℚ} {n k : Nat} (h : IsNearestNat q n) (hk : q ≤ k) : n ≤ k := by
  have hlt : (n : ℚ) < k + 1 := by linarith [(abs_le.1 h.close).1]
  exact Nat.lt_succ_iff.1 (by exact_mod_cast hlt)

/-- A number below the midpoint under an even integer rounds below that integer, and conversely. -/
theorem IsNearestNat.lt_even_iff {q : ℚ} {n k : Nat} (h : IsNearestNat q n) (hk : k % 2 = 0) :
    n < k ↔ q < k - 1 / 2 := by
  obtain ⟨hlo, hhi⟩ := abs_le.1 h.close
  constructor
  · intro hn
    have hn1 : (n : ℚ) + 1 ≤ k := by exact_mod_cast hn
    refine lt_of_le_of_ne (by linarith) fun hq => ?_
    have hnk : (n : ℚ) + 1 = k := by linarith
    have hodd : n + 1 = k := by exact_mod_cast hnk
    have heven := h.tie (by rw [hq, ← hnk, abs_of_nonneg] <;> linarith)
    omega
  · intro hq
    have hlt : (n : ℚ) < k := by linarith
    exact_mod_cast hlt

/-- `roundShift` rounds `m / 2^k`. -/
theorem isNearestNat_roundShift (m k : Nat) : IsNearestNat ((m : ℚ) / 2 ^ k) (roundShift m k) := by
  have hpos : (0 : ℚ) < 2 ^ k := by positivity
  have hdiv : (m : ℚ) / 2 ^ k = (m / 2 ^ k : Nat) + (m % 2 ^ k : Nat) / 2 ^ k := by
    rw [eq_comm, eq_div_iff hpos.ne', add_mul, div_mul_cancel₀ _ hpos.ne']
    exact_mod_cast Nat.div_add_mod' m (2 ^ k)
  have hmod : ((m % 2 ^ k : Nat) : ℚ) ≤ 2 ^ k := by exact_mod_cast (Nat.mod_lt m (by positivity)).le
  rw [hdiv]
  unfold roundShift
  simp only
  split
  case isTrue hlow =>
    have hlow : 2 * ((m % 2 ^ k : Nat) : ℚ) < 2 ^ k := by exact_mod_cast hlow
    exact isNearestNat_below _ (by positivity) (by rw [div_lt_iff₀ hpos]; linarith)
  case isFalse hlow =>
    split
    case isTrue hhigh =>
      have hhigh : (2 : ℚ) ^ k < 2 * (m % 2 ^ k : Nat) := by exact_mod_cast hhigh
      exact isNearestNat_above _ (by rw [lt_div_iff₀ hpos]; linarith) (by rwa [div_le_one hpos])
    case isFalse hhigh =>
      have hmid : 2 * (m % 2 ^ k) = 2 ^ k := by omega
      have hk : k ≠ 0 := by
        rintro rfl
        omega
      have hmidq : 2 * ((m % 2 ^ k : Nat) : ℚ) = 2 ^ k := by exact_mod_cast hmid
      have hhalf : ((m % 2 ^ k : Nat) : ℚ) / 2 ^ k = 1 / 2 := by
        rw [div_eq_iff hpos.ne']
        linarith
      rw [hhalf, if_neg hk]
      exact isNearestNat_midpoint _

/-! ## The exact significand -/

/-- The exponent `round` works at: the least from 0 on at which `m × 2^(x - 298)` has a significand below 2^24. -/
def roundExp (m x : Nat) : Nat := Nat.log2 m + 1 + x - (24 + 149)

/-- The exact significand of `m × 2^(x - 298)` at that exponent. -/
def exactSig (m x : Nat) : ℚ := m * 2 ^ ((x : ℤ) - (roundExp m x + 149))

theorem exactSig_mul (m x : Nat) : exactSig m x * 2 ^ ((roundExp m x : ℤ) - 149) = m * 2 ^ ((x : ℤ) - 298) := by
  unfold exactSig
  rw [mul_assoc, ← zpow_add₀ two_ne_zero]
  congr 2
  ring

theorem exactSig_pos {m : Nat} (hm : m ≠ 0) (x : Nat) : 0 < exactSig m x := by
  have : (0 : ℚ) < m := by exact_mod_cast Nat.pos_of_ne_zero hm
  unfold exactSig
  positivity

theorem exactSig_lt (m x : Nat) : exactSig m x < 2 ^ 24 := by
  have hm : (m : ℚ) < 2 ^ ((Nat.log2 m : ℤ) + 1) := by exact_mod_cast Nat.lt_log2_self
  calc exactSig m x
      < 2 ^ ((Nat.log2 m : ℤ) + 1) * 2 ^ ((x : ℤ) - (roundExp m x + 149)) := by
        unfold exactSig
        gcongr
    _ = 2 ^ ((Nat.log2 m : ℤ) + 1 + (x - (roundExp m x + 149))) := (zpow_add₀ two_ne_zero _ _).symm
    _ ≤ 2 ^ (24 : ℤ) := zpow_le_zpow_right₀ one_le_two (by unfold roundExp; omega)
    _ = 2 ^ 24 := by norm_num

/-- Above the least exponent the significand is normalised. -/
theorem le_exactSig {m x : Nat} (hm : m ≠ 0) (he : 0 < roundExp m x) : 2 ^ 23 ≤ exactSig m x := by
  have hm : (2 : ℚ) ^ (Nat.log2 m : ℤ) ≤ m := by exact_mod_cast Nat.log2_self_le hm
  calc (2 : ℚ) ^ 23 = 2 ^ ((Nat.log2 m : ℤ) + (x - (roundExp m x + 149))) := by
        rw [← zpow_natCast]
        congr 1
        unfold roundExp at he ⊢
        omega
    _ = 2 ^ (Nat.log2 m : ℤ) * 2 ^ ((x : ℤ) - (roundExp m x + 149)) := zpow_add₀ two_ne_zero _ _
    _ ≤ exactSig m x := by
        unfold exactSig
        gcongr

theorem exactSig_of_le {m x : Nat} (h : x ≤ roundExp m x + 149) :
    exactSig m x = m / 2 ^ (roundExp m x + 149 - x) := by
  have hexp : (x : ℤ) - (roundExp m x + 149) = -((roundExp m x + 149 - x : Nat) : ℤ) := by omega
  unfold exactSig
  rw [hexp, zpow_neg, zpow_natCast, div_eq_mul_inv]

theorem exactSig_of_ge {m x : Nat} (h : roundExp m x + 149 ≤ x) :
    exactSig m x = (m * 2 ^ (x - (roundExp m x + 149)) : Nat) := by
  have hexp : (x : ℤ) - (roundExp m x + 149) = ((x - (roundExp m x + 149) : Nat) : ℤ) := by omega
  unfold exactSig
  rw [hexp, zpow_natCast, Nat.cast_mul, Nat.cast_pow, Nat.cast_ofNat]

/-- `round` carries the integer nearest to the exact significand. -/
theorem round_eq_carry (neg : Bool) (m x : Nat) :
    ∃ n, round neg m x = carry neg (roundExp m x) n ∧ IsNearestNat (exactSig m x) n := by
  by_cases h : x ≤ roundExp m x + 149
  · exact ⟨_, if_pos h, exactSig_of_le h ▸ isNearestNat_roundShift _ _⟩
  · exact ⟨_, if_neg h, exactSig_of_ge (Nat.le_of_not_le h) ▸ isNearestNat_self _⟩

/-! ## From a significand to a value -/

/-- The sign of a number as a factor. -/
def signFactor (neg : Bool) : ℚ := if neg then -1 else 1

@[simp] theorem signFactor_true : signFactor true = -1 := rfl
@[simp] theorem signFactor_false : signFactor false = 1 := rfl

@[simp] theorem signFactor_mul_self (neg : Bool) : signFactor neg * signFactor neg = 1 := by
  cases neg <;> norm_num

@[simp] theorem abs_signFactor (neg : Bool) : |signFactor neg| = 1 := by
  cases neg <;> norm_num

theorem signFactor_bne (s t : Bool) : signFactor (s != t) = signFactor s * signFactor t := by
  cases s <;> cases t <;> norm_num

theorem value_fin (neg : Bool) (e m : Nat) :
    F32.value (.fin neg e m) = signFactor neg * m * 2 ^ ((e : ℤ) - 149) := rfl

theorem canonical_fin {neg : Bool} {e m : Nat} :
    canonical (.fin neg e m) = true ↔ m < 2 ^ 24 ∧ e ≤ 253 ∧ (e = 0 ∨ 2 ^ 23 ≤ m) :=
  decide_eq_true_iff

/-- What `carry` gives for a significand that rounding can give: the number itself in canonical form, its last bit
kept clear, or an infinity past the largest exponent. -/
theorem carry_cases (neg : Bool) {e n : Nat} (hn : n ≤ 2 ^ 24) (hnorm : 0 < e → 2 ^ 23 ≤ n) :
    (∃ f k, carry neg e n = .fin neg f k ∧ canonical (.fin neg f k) = true ∧
      (k : ℚ) * 2 ^ ((f : ℤ) - 149) = n * 2 ^ ((e : ℤ) - 149) ∧ (n % 2 = 0 → k % 2 = 0) ∧
      (e < 253 ∨ e = 253 ∧ n < 2 ^ 24)) ∨
    (carry neg e n = .inf neg ∧ (253 < e ∨ e = 253 ∧ n = 2 ^ 24)) := by
  unfold carry
  split
  case isTrue hlt =>
    split
    case isTrue he => exact .inr ⟨rfl, .inl he⟩
    case isFalse he =>
      exact .inl ⟨e, n, rfl, canonical_fin.2 ⟨hlt, by omega, by omega⟩, rfl, id, by omega⟩
  case isFalse hge =>
    obtain rfl : n = 2 ^ 24 := by omega
    split
    case isTrue he => exact .inr ⟨rfl, by omega⟩
    case isFalse he =>
      have hexp : ((e + 1 : Nat) : ℤ) - 149 = 1 + (e - 149) := by omega
      refine .inl ⟨e + 1, 2 ^ 23, rfl, canonical_fin.2 ⟨by norm_num, by omega, .inr le_rfl⟩, ?_, fun _ => rfl,
        by omega⟩
      rw [hexp, zpow_add₀ two_ne_zero]
      norm_num
      ring

theorem carry_negative (neg : Bool) (e n : Nat) : (carry neg e n).negative = neg := by
  unfold carry
  repeat' split
  all_goals rfl

/-! ## Correct rounding -/

/-- Seen from exponent `e` and a sign, a binary32 value is an integer significand, or one below the least normalised. -/
theorem value_eq_sig_mul {x : F32} (hc : x.canonical = true) (hf : x.finite = true) (neg : Bool) (e : Nat) :
    ∃ v : ℚ, x.value = signFactor neg * (v * 2 ^ ((e : ℤ) - 149)) ∧
      ((∃ j : ℤ, v = j) ∨ 0 < e ∧ |v| < 2 ^ 23) := by
  cases x with
  | nan => cases hf
  | inf s => cases hf
  | fin s f k =>
    obtain ⟨hk, -, -⟩ := canonical_fin.1 hc
    refine ⟨signFactor (neg != s) * k * 2 ^ ((f : ℤ) - e), ?_, ?_⟩
    · have hexp : (2 : ℚ) ^ ((f : ℤ) - 149) = 2 ^ ((f : ℤ) - e) * 2 ^ ((e : ℤ) - 149) := by
        rw [← zpow_add₀ two_ne_zero, sub_add_sub_cancel]
      rw [value_fin, hexp, signFactor_bne]
      linear_combination (-signFactor s * k * 2 ^ ((f : ℤ) - e) * 2 ^ ((e : ℤ) - 149)) * signFactor_mul_self neg
    · by_cases hfe : e ≤ f
      · refine .inl ⟨(if neg != s then -1 else 1) * k * 2 ^ (f - e), ?_⟩
        rw [← Nat.cast_sub hfe, zpow_natCast]
        push_cast
        rfl
      · refine .inr ⟨by omega, ?_⟩
        have hkq : (k : ℚ) < 2 ^ 24 := by exact_mod_cast hk
        have hpow : (2 : ℚ) ^ ((f : ℤ) - e) ≤ 2 ^ (-1 : ℤ) := zpow_le_zpow_right₀ one_le_two (by omega)
        calc |signFactor (neg != s) * k * 2 ^ ((f : ℤ) - e)| = k * 2 ^ ((f : ℤ) - e) := by
              rw [abs_mul, abs_mul, abs_signFactor, one_mul, Nat.abs_cast, abs_of_nonneg (by positivity)]
          _ ≤ k * 2 ^ (-1 : ℤ) := by gcongr
          _ < 2 ^ 23 := by norm_num; linarith

/-- The integer nearest to a normalised significand is at least as near as any value's, the even one where another is
as near. -/
theorem IsNearestNat.nearest_sig {q v : ℚ} {n e : Nat} (h : IsNearestNat q n) (hnorm : 0 < e → 2 ^ 23 ≤ q)
    (hv : (∃ j : ℤ, v = j) ∨ 0 < e ∧ |v| < 2 ^ 23) :
    |q - n| ≤ |q - v| ∧ (|q - n| = |q - v| → v ≠ n → n % 2 = 0) := by
  obtain ⟨j, rfl⟩ | ⟨he, hlt⟩ := hv
  · exact ⟨h.le j, fun heq hne => h.even_of_eq (by exact_mod_cast hne) heq⟩
  · have hq := hnorm he
    have hvq := (abs_lt.1 hlt).2
    have hfar : |q - n| < |q - v| := by
      calc |q - n| ≤ |q - (2 ^ 23 : ℤ)| := h.le _
        _ = q - 2 ^ 23 := by
          push_cast
          exact abs_of_nonneg (by linarith)
        _ < q - v := by linarith
        _ ≤ |q - v| := le_abs_self _
    exact ⟨hfar.le, fun heq => absurd heq hfar.ne⟩

theorem abs_signed_mul (neg : Bool) {a u : ℚ} (hu : 0 ≤ u) : |signFactor neg * (a * u)| = |a| * u := by
  rw [abs_mul, abs_signFactor, one_mul, abs_mul, abs_of_nonneg hu]

theorem abs_signed_sub (neg : Bool) (a b : ℚ) {u : ℚ} (hu : 0 ≤ u) :
    |signFactor neg * (a * u) - signFactor neg * (b * u)| = |a - b| * u := by
  rw [← mul_sub, ← sub_mul, abs_signed_mul neg hu]

theorem signed_lt_zero (neg : Bool) {a : ℚ} (ha : 0 < a) : signFactor neg * a < 0 ↔ neg = true := by
  cases neg <;> simp [ha, ha.le]

/-- A significand rounds into range exactly where its number lies below the overflow bound. -/
theorem mul_zpow_lt_bound_iff {q : ℚ} {n e : Nat} (h : IsNearestNat q n) (hpos : 0 < q) (hlt : q < 2 ^ 24)
    (hnorm : 0 < e → 2 ^ 23 ≤ q) :
    q * 2 ^ ((e : ℤ) - 149) < 2 ^ 128 - 2 ^ 103 ↔ e < 253 ∨ e = 253 ∧ n < 2 ^ 24 := by
  obtain he | rfl | he := lt_trichotomy e 253
  · refine iff_of_true ?_ (.inl he)
    have hpow : (2 : ℚ) ^ ((e : ℤ) - 149) ≤ 2 ^ (103 : ℤ) := zpow_le_zpow_right₀ one_le_two (by omega)
    calc q * 2 ^ ((e : ℤ) - 149) ≤ 2 ^ 24 * 2 ^ (103 : ℤ) := by gcongr
      _ < 2 ^ 128 - 2 ^ 103 := by norm_num
  · have hpow : (2 : ℚ) ^ (((253 : Nat) : ℤ) - 149) = 2 ^ 104 := by norm_num
    have hbound : q * 2 ^ 104 < 2 ^ 128 - 2 ^ 103 ↔ q < (2 ^ 24 : Nat) - 1 / 2 := by
      rw [← lt_div_iff₀ (by norm_num)]
      norm_num
    rw [hpow, hbound, ← h.lt_even_iff (by norm_num)]
    simp
  · have hq := hnorm (by omega)
    have hpow : (2 : ℚ) ^ (105 : ℤ) ≤ 2 ^ ((e : ℤ) - 149) := zpow_le_zpow_right₀ one_le_two (by omega)
    refine iff_of_false (not_lt.2 ?_) (by omega)
    calc (2 : ℚ) ^ 128 - 2 ^ 103 ≤ 2 ^ 23 * 2 ^ (105 : ℤ) := by norm_num
      _ ≤ q * 2 ^ ((e : ℤ) - 149) := by gcongr

/-- Carrying the integer nearest to the exact significand rounds the number once, to nearest even. -/
theorem roundsTo_carry (neg : Bool) {q : ℚ} {n e : Nat} (h : IsNearestNat q n) (hpos : 0 < q) (hlt : q < 2 ^ 24)
    (hnorm : 0 < e → 2 ^ 23 ≤ q) :
    RoundsTo (signFactor neg * (q * 2 ^ ((e : ℤ) - 149))) (carry neg e n) := by
  have hu : (0 : ℚ) < 2 ^ ((e : ℤ) - 149) := by positivity
  have hn : n ≤ 2 ^ 24 := h.le_of_le_nat (by exact_mod_cast hlt.le)
  have hnormn : 0 < e → 2 ^ 23 ≤ n := fun he => h.le_of_nat_le (by exact_mod_cast hnorm he)
  have hbound := mul_zpow_lt_bound_iff h hpos hlt hnorm
  have hsign : (carry neg e n).negative = decide (signFactor neg * (q * 2 ^ ((e : ℤ) - 149)) < 0) := by
    rw [carry_negative, Bool.eq_iff_iff, decide_eq_true_iff, signed_lt_zero neg (mul_pos hpos hu)]
  have habs : |signFactor neg * (q * 2 ^ ((e : ℤ) - 149))| = q * 2 ^ ((e : ℤ) - 149) := by
    rw [abs_signed_mul neg hu.le, abs_of_pos hpos]
  obtain ⟨f, k, hr, -, hk, heven, hin⟩ | ⟨hr, hout⟩ := carry_cases neg hn hnormn
  · refine ⟨fun _ => ⟨by rw [hr]; rfl, fun x hc hf => ?_⟩, fun hover => ?_, fun _ => hsign⟩
    · obtain ⟨v, hx, hv⟩ := value_eq_sig_mul hc hf neg e
      have hval : (carry neg e n).value = signFactor neg * (n * 2 ^ ((e : ℤ) - 149)) := by
        rw [hr, value_fin, mul_assoc, hk]
      obtain ⟨hle, htie⟩ := h.nearest_sig hnorm hv
      rw [hval, hx, abs_signed_sub neg _ _ hu.le, abs_signed_sub neg _ _ hu.le]
      refine ⟨mul_le_mul_of_nonneg_right hle hu.le, fun heq hne => ?_⟩
      have hn2 : n % 2 = 0 := htie (mul_right_cancel₀ hu.ne' heq) fun hvn => hne (by rw [hvn])
      rw [hr]
      exact beq_iff_eq.2 (heven hn2)
    · exact absurd (hbound.2 hin) (not_lt.2 (habs ▸ hover))
  · refine ⟨fun hin => ?_, fun _ => by rw [hr]; rfl, fun _ => hsign⟩
    have := hbound.1 (habs ▸ hin)
    omega

theorem canonical_carry (neg : Bool) {e n : Nat} (hn : n ≤ 2 ^ 24) (hnorm : 0 < e → 2 ^ 23 ≤ n) :
    (carry neg e n).canonical = true := by
  obtain ⟨f, k, hr, hc, -⟩ | ⟨hr, -⟩ := carry_cases neg hn hnorm
  · exact hr ▸ hc
  · exact hr ▸ rfl

/-- `round` rounds `±m × 2^(x - 298)` once, to nearest even. -/
theorem roundsTo_round (neg : Bool) {m : Nat} (hm : m ≠ 0) (x : Nat) :
    RoundsTo (signFactor neg * (m * 2 ^ ((x : ℤ) - 298))) (round neg m x) := by
  obtain ⟨n, hr, hn⟩ := round_eq_carry neg m x
  rw [hr, ← exactSig_mul]
  exact roundsTo_carry neg hn (exactSig_pos hm x) (exactSig_lt m x) (le_exactSig hm)

theorem canonical_round (neg : Bool) {m : Nat} (hm : m ≠ 0) (x : Nat) : (round neg m x).canonical = true := by
  obtain ⟨n, hr, hn⟩ := round_eq_carry neg m x
  have hlt := exactSig_lt m x
  have hnorm := le_exactSig hm (x := x)
  rw [hr]
  exact canonical_carry neg (hn.le_of_le_nat (by exact_mod_cast hlt.le))
    fun he => hn.le_of_nat_le (by exact_mod_cast hnorm he)

theorem round_negative (neg : Bool) (m x : Nat) : (round neg m x).negative = neg := by
  obtain ⟨n, hr, -⟩ := round_eq_carry neg m x
  rw [hr, carry_negative]

/-- A zero of either sign is 0 rounded. -/
theorem roundsTo_zero (neg : Bool) : RoundsTo 0 (.fin neg 0 0) := by
  have hzero : F32.value (.fin neg 0 0) = 0 := by simp [value_fin]
  refine ⟨fun _ => ⟨rfl, fun x _ _ => ?_⟩, fun hover => absurd hover (by norm_num), fun hne => absurd rfl hne⟩
  rw [hzero]
  exact ⟨by simp, fun heq hne => absurd (by simpa using heq.symm) hne⟩

end Sys2Proof.F32
end

section
/-! PROOFS. Binary32: the operations, each the exact result rounded once (00_scope.md R11, 41_biquad.md R150). -/

namespace Sys2Proof.F32

open Sys2Proof Sys2Proof.Machine

/-! ## Sums and integers -/

theorem int_eq_signFactor_mul (v : ℤ) : (v : ℚ) = signFactor (decide (v < 0)) * v.natAbs := by
  rw [Nat.cast_natAbs]
  obtain h | h := lt_or_ge v 0
  · rw [decide_eq_true h, abs_of_neg h, signFactor_true]
    push_cast
    ring
  · rw [decide_eq_false h.not_gt, abs_of_nonneg h, signFactor_false, one_mul]

/-- `round` of an integer's sign and magnitude rounds `v × 2^(x - 298)`. -/
theorem roundsTo_round_int {v : ℤ} (hv : v ≠ 0) (x : Nat) :
    RoundsTo (v * 2 ^ ((x : ℤ) - 298)) (round (decide (v < 0)) v.natAbs x) := by
  have h := roundsTo_round (decide (v < 0)) (Int.natAbs_ne_zero.2 hv) x
  rwa [← mul_assoc, ← int_eq_signFactor_mul] at h

/-- `scaled` is the value in units of a smaller exponent. -/
theorem scaled_mul (s : Bool) {e b : Nat} (m : Nat) (hb : b ≤ e) :
    (scaled s e m b : ℚ) * 2 ^ ((b : ℤ) - 149) = F32.value (.fin s e m) := by
  have hexp : (2 : ℚ) ^ ((e : ℤ) - 149) = 2 ^ (e - b) * 2 ^ ((b : ℤ) - 149) := by
    rw [← zpow_natCast, ← zpow_add₀ two_ne_zero]
    congr 1
    omega
  have hscaled : (scaled s e m b : ℚ) = signFactor s * m * 2 ^ (e - b) := by
    unfold scaled
    cases s <;> simp
  rw [hscaled, value_fin, hexp, mul_assoc]

/-- The sum of two finite values in units of their smaller exponent, as `fadd` takes it. -/
def alignedSum (s : Bool) (e m : Nat) (t : Bool) (f n : Nat) : ℤ :=
  scaled s e m (min e f) + scaled t f n (min e f)

theorem alignedSum_mul (s : Bool) (e m : Nat) (t : Bool) (f n : Nat) :
    (alignedSum s e m t f n : ℚ) * 2 ^ (((min e f : Nat) : ℤ) - 149) =
      F32.value (.fin s e m) + F32.value (.fin t f n) := by
  rw [← scaled_mul s m (min_le_left e f), ← scaled_mul t n (min_le_right e f), ← add_mul]
  unfold alignedSum
  push_cast
  rfl

theorem alignedSum_eq_zero_iff {s : Bool} {e m : Nat} {t : Bool} {f n : Nat} :
    alignedSum s e m t f n = 0 ↔ F32.value (.fin s e m) + F32.value (.fin t f n) = 0 := by
  have hu : (2 : ℚ) ^ (((min e f : Nat) : ℤ) - 149) ≠ 0 := by positivity
  rw [← alignedSum_mul, mul_eq_zero_iff_right hu, Int.cast_eq_zero]

theorem fadd_of_sum_eq_zero {s : Bool} {e m : Nat} {t : Bool} {f n : Nat} (h : alignedSum s e m t f n = 0) :
    fadd (.fin s e m) (.fin t f n) = .fin (s && t) 0 0 :=
  if_pos h

theorem fadd_of_sum_ne_zero {s : Bool} {e m : Nat} {t : Bool} {f n : Nat} (h : alignedSum s e m t f n ≠ 0) :
    fadd (.fin s e m) (.fin t f n) =
      round (decide (alignedSum s e m t f n < 0)) (alignedSum s e m t f n).natAbs (min e f + 149) :=
  if_neg h

theorem roundsTo_fadd {a b : F32} (ha : a.finite = true) (hb : b.finite = true) :
    RoundsTo (a.value + b.value) (fadd a b) := by
  match a, b, ha, hb with
  | .fin s e m, .fin t f n, _, _ =>
    rw [← alignedSum_mul]
    by_cases h : alignedSum s e m t f n = 0
    · rw [fadd_of_sum_eq_zero h, h, Int.cast_zero, zero_mul]
      exact roundsTo_zero _
    · have hexp : ((min e f + 149 : Nat) : ℤ) - 298 = ((min e f : Nat) : ℤ) - 149 := by omega
      rw [fadd_of_sum_ne_zero h, ← hexp]
      exact roundsTo_round_int h _

/-- A sum that is exactly 0 is -0 only from two negative operands. -/
theorem fadd_negative_of_zero {a b : F32} (ha : a.finite = true) (hb : b.finite = true)
    (h : a.value + b.value = 0) : (fadd a b).negative = (a.negative && b.negative) := by
  match a, b, ha, hb with
  | .fin s e m, .fin t f n, _, _ =>
    rw [fadd_of_sum_eq_zero (alignedSum_eq_zero_iff.2 h)]
    rfl

theorem canonical_fadd (a b : F32) : (fadd a b).canonical = true := by
  match a, b with
  | .nan, b => rfl
  | .inf s, .nan => rfl
  | .fin s e m, .nan => rfl
  | .inf s, .inf t => cases s <;> cases t <;> rfl
  | .inf s, .fin t f n => rfl
  | .fin s e m, .inf t => rfl
  | .fin s e m, .fin t f n =>
    by_cases h : alignedSum s e m t f n = 0
    · exact fadd_of_sum_eq_zero h ▸ rfl
    · exact fadd_of_sum_ne_zero h ▸ canonical_round _ (Int.natAbs_ne_zero.2 h) _

theorem fadd_nan_right (x : F32) : fadd x .nan = .nan := by
  cases x <;> rfl

theorem fadd_inf_left (s : Bool) {b : F32} (hb : b.finite = true) : fadd (.inf s) b = .inf s := by
  match b, hb with
  | .fin t f n, _ => rfl

theorem fadd_inf_right {a : F32} (ha : a.finite = true) (s : Bool) : fadd a (.inf s) = .inf s := by
  match a, ha with
  | .fin t f n, _ => rfl

/-! ## Negation and difference -/

@[simp] theorem value_neg (x : F32) : (neg x).value = -x.value := by
  match x with
  | .nan => simp [neg, value]
  | .inf s => simp [neg, value]
  | .fin s e m => cases s <;> simp [neg, value_fin]

@[simp] theorem finite_neg (x : F32) : (neg x).finite = x.finite := by
  cases x <;> rfl

theorem negative_neg {x : F32} (hx : x.finite = true) : (neg x).negative = !x.negative := by
  match x, hx with
  | .fin s e m, _ => rfl

theorem roundsTo_fsub {a b : F32} (ha : a.finite = true) (hb : b.finite = true) :
    RoundsTo (a.value - b.value) (fsub a b) := by
  rw [sub_eq_add_neg, ← value_neg]
  exact roundsTo_fadd ha ((finite_neg b).trans hb)

theorem fsub_negative_of_zero {a b : F32} (ha : a.finite = true) (hb : b.finite = true)
    (h : a.value - b.value = 0) : (fsub a b).negative = (a.negative && !b.negative) := by
  rw [sub_eq_add_neg, ← value_neg] at h
  rw [← negative_neg hb]
  exact fadd_negative_of_zero ha ((finite_neg b).trans hb) h

theorem canonical_fsub (a b : F32) : (fsub a b).canonical = true := canonical_fadd a (neg b)

/-! ## Product -/

theorem value_mul_value (s : Bool) (e m : Nat) (t : Bool) (f n : Nat) :
    F32.value (.fin s e m) * F32.value (.fin t f n) =
      signFactor (s != t) * ((m * n : Nat) * 2 ^ (((e + f : Nat) : ℤ) - 298)) := by
  have hexp : (2 : ℚ) ^ (((e + f : Nat) : ℤ) - 298) = 2 ^ ((e : ℤ) - 149) * 2 ^ ((f : ℤ) - 149) := by
    rw [← zpow_add₀ two_ne_zero]
    congr 1
    push_cast
    ring
  rw [value_fin, value_fin, signFactor_bne, hexp]
  push_cast
  ring

theorem value_fin_eq_zero_iff {s : Bool} {e m : Nat} : F32.value (.fin s e m) = 0 ↔ m = 0 := by
  have hu : (2 : ℚ) ^ ((e : ℤ) - 149) ≠ 0 := by positivity
  have hs : signFactor s ≠ 0 := by cases s <;> norm_num
  simp [value_fin, hu, hs]

theorem fmul_of_eq_zero {s : Bool} {e m : Nat} {t : Bool} {f n : Nat} (h : m * n = 0) :
    fmul (.fin s e m) (.fin t f n) = .fin (s != t) 0 0 :=
  if_pos h

theorem fmul_of_ne_zero {s : Bool} {e m : Nat} {t : Bool} {f n : Nat} (h : m * n ≠ 0) :
    fmul (.fin s e m) (.fin t f n) = round (s != t) (m * n) (e + f) :=
  if_neg h

theorem roundsTo_fmul {a b : F32} (ha : a.finite = true) (hb : b.finite = true) :
    RoundsTo (a.value * b.value) (fmul a b) := by
  match a, b, ha, hb with
  | .fin s e m, .fin t f n, _, _ =>
    rw [value_mul_value]
    by_cases h : m * n = 0
    · rw [fmul_of_eq_zero h, h, Nat.cast_zero, zero_mul, mul_zero]
      exact roundsTo_zero _
    · rw [fmul_of_ne_zero h]
      exact roundsTo_round _ h _

theorem fmul_negative {a b : F32} (ha : a.finite = true) (hb : b.finite = true) :
    (fmul a b).negative = (a.negative != b.negative) := by
  match a, b, ha, hb with
  | .fin s e m, .fin t f n, _, _ =>
    by_cases h : m * n = 0
    · rw [fmul_of_eq_zero h]
      rfl
    · rw [fmul_of_ne_zero h]
      exact round_negative _ _ _

theorem fmul_nan_right (x : F32) : fmul x .nan = .nan := by
  cases x <;> rfl

theorem fmul_inf_left (s : Bool) {b : F32} (hb : b.finite = true) :
    fmul (.inf s) b = if b.value = 0 then .nan else .inf (s != b.negative) := by
  match b, hb with
  | .fin t f n, _ =>
    simp only [value_fin_eq_zero_iff]
    rfl

theorem fmul_inf_right {a : F32} (ha : a.finite = true) (s : Bool) :
    fmul a (.inf s) = if a.value = 0 then .nan else .inf (a.negative != s) := by
  match a, ha with
  | .fin t f n, _ =>
    simp only [value_fin_eq_zero_iff]
    rfl

theorem canonical_fmul (a b : F32) : (fmul a b).canonical = true := by
  match a, b with
  | .nan, b => rfl
  | .inf s, .nan => rfl
  | .fin s e m, .nan => rfl
  | .inf s, .inf t => rfl
  | .inf s, .fin t f n =>
    rw [fmul_inf_left s rfl]
    split <;> rfl
  | .fin s e m, .inf t =>
    rw [fmul_inf_right rfl t]
    split <;> rfl
  | .fin s e m, .fin t f n =>
    by_cases h : m * n = 0
    · exact fmul_of_eq_zero h ▸ rfl
    · exact fmul_of_ne_zero h ▸ canonical_round _ h _

theorem fsub_inf_inf (s t : Bool) : fsub (.inf s) (.inf t) = if s = t then .nan else .inf s := by
  cases s <;> cases t <;> rfl

/-- Settles O47: each operation takes the exact result in integers and rounds it once; the rest are special cases. -/
theorem arithmeticRoundsToNearestEven : Obligations.ArithmeticRoundsToNearestEven := by
  unfold Obligations.ArithmeticRoundsToNearestEven
  refine ⟨fun a b _ _ ha hb => ⟨roundsTo_fadd ha hb, roundsTo_fsub ha hb, roundsTo_fmul ha hb,
    fadd_negative_of_zero ha hb, fsub_negative_of_zero ha hb, fmul_negative ha hb, fun s => ?_⟩,
    fun s t => ⟨rfl, fsub_inf_inf s t, rfl⟩,
    fun x => ⟨rfl, fadd_nan_right x, rfl, fadd_nan_right x, rfl, fmul_nan_right x⟩⟩
  exact ⟨fadd_inf_left s hb, fadd_inf_right ha s, fadd_inf_left s ((finite_neg b).trans hb),
    fadd_inf_right ha (!s), fmul_inf_left s hb, fmul_inf_right ha s⟩

end Sys2Proof.F32
end

section
/-! PROOFS. Binary32: bit patterns (00_scope.md R11, 20_memory.md R94, R97). -/

namespace Sys2Proof.F32

open Sys2Proof Sys2Proof.Machine

/-! ## Reading a pattern -/

theorem signBit_eq (w : Word) : (w.toNat / 2 ^ 31 == 1) = w.getLsbD 31 := by
  have hlt : w.toNat / 2 ^ 31 < 2 := Nat.div_lt_of_lt_mul w.isLt
  rw [BitVec.getLsbD, Nat.testBit_eq_decide_div_mod_eq, Nat.mod_eq_of_lt hlt]
  rfl

theorem ofBits_special {w : Word} (h : w.toNat / 2 ^ 23 % 2 ^ 8 = 255) :
    ofBits w = if w.toNat % 2 ^ 23 = 0 then .inf (w.getLsbD 31) else .nan := by
  rw [← signBit_eq]
  exact if_pos h

theorem ofBits_subnormal {w : Word} (h : w.toNat / 2 ^ 23 % 2 ^ 8 = 0) :
    ofBits w = .fin (w.getLsbD 31) 0 (w.toNat % 2 ^ 23) := by
  rw [← signBit_eq]
  exact (if_neg (by omega)).trans (if_pos h)

theorem ofBits_normal {w : Word} (h0 : w.toNat / 2 ^ 23 % 2 ^ 8 ≠ 0) (h255 : w.toNat / 2 ^ 23 % 2 ^ 8 ≠ 255) :
    ofBits w = .fin (w.getLsbD 31) (w.toNat / 2 ^ 23 % 2 ^ 8 - 1) (2 ^ 23 + w.toNat % 2 ^ 23) := by
  rw [← signBit_eq]
  exact (if_neg h255).trans (if_neg h0)

theorem canonical_ofBits (w : Word) : (ofBits w).canonical = true := by
  by_cases h255 : w.toNat / 2 ^ 23 % 2 ^ 8 = 255
  · rw [ofBits_special h255]
    split <;> rfl
  · by_cases h0 : w.toNat / 2 ^ 23 % 2 ^ 8 = 0
    · rw [ofBits_subnormal h0, canonical_fin]
      omega
    · rw [ofBits_normal h0 h255, canonical_fin]
      omega

/-- A finite pattern's value, by its fields (20_memory.md R94). -/
theorem ofBits_value {w : Word} (h : w.toNat / 2 ^ 23 % 2 ^ 8 ≠ 255) :
    (ofBits w).finite = true ∧ (ofBits w).negative = w.getLsbD 31 ∧
      (ofBits w).value = (if w.getLsbD 31 = true then -1 else 1) *
        (if w.toNat / 2 ^ 23 % 2 ^ 8 = 0 then ((w.toNat % 2 ^ 23 : Nat) : ℚ) / 2 ^ 149
          else (1 + ((w.toNat % 2 ^ 23 : Nat) : ℚ) / 2 ^ 23) * 2 ^ (((w.toNat / 2 ^ 23 % 2 ^ 8 : Nat) : ℤ) - 127)) := by
  by_cases h0 : w.toNat / 2 ^ 23 % 2 ^ 8 = 0
  · rw [ofBits_subnormal h0, if_pos h0]
    refine ⟨rfl, rfl, ?_⟩
    rw [value_fin, mul_assoc, div_eq_mul_inv]
    rfl
  · rw [ofBits_normal h0 h, if_neg h0]
    refine ⟨rfl, rfl, ?_⟩
    have hexp : ((w.toNat / 2 ^ 23 % 2 ^ 8 - 1 : Nat) : ℤ) - 149 =
        ((w.toNat / 2 ^ 23 % 2 ^ 8 : Nat) : ℤ) - 127 + (-23 : ℤ) := by omega
    have hsig : ((2 ^ 23 + w.toNat % 2 ^ 23 : Nat) : ℚ) * 2 ^ (-23 : ℤ) =
        1 + ((w.toNat % 2 ^ 23 : Nat) : ℚ) / 2 ^ 23 := by
      push_cast
      norm_num
      ring
    rw [value_fin, hexp, zpow_add₀ two_ne_zero, ← hsig, mul_assoc,
      mul_comm ((2 : ℚ) ^ (_ - _ : ℤ)), ← mul_assoc ((2 ^ 23 + w.toNat % 2 ^ 23 : Nat) : ℚ)]
    rfl

/-! ## Writing a pattern -/

theorem toNat_pattern (neg : Bool) {ef frac : Nat} (he : ef < 256) (hf : frac < 2 ^ 23) :
    (pattern neg ef frac).toNat = (if neg then 2 ^ 31 else 0) + ef * 2 ^ 23 + frac := by
  unfold pattern
  rw [BitVec.toNat_ofNat, Nat.mod_eq_of_lt]
  cases neg
  · simp only [Bool.false_eq_true, if_false]
    omega
  · simp only [if_true]
    omega

/-- The three fields of a pattern. -/
theorem pattern_fields (neg : Bool) {ef frac : Nat} (he : ef < 256) (hf : frac < 2 ^ 23) :
    (pattern neg ef frac).getLsbD 31 = neg ∧ (pattern neg ef frac).toNat / 2 ^ 23 % 2 ^ 8 = ef ∧
      (pattern neg ef frac).toNat % 2 ^ 23 = frac := by
  rw [← signBit_eq, toNat_pattern neg he hf]
  cases neg
  · simp only [Bool.false_eq_true, if_false]
    exact ⟨beq_eq_false_iff_ne.2 (by omega), by omega, by omega⟩
  · simp only [if_true]
    exact ⟨beq_iff_eq.2 (by omega), by omega, by omega⟩

/-- A word is the pattern of its fields. -/
theorem pattern_of_fields (w : Word) :
    pattern (w.getLsbD 31) (w.toNat / 2 ^ 23 % 2 ^ 8) (w.toNat % 2 ^ 23) = w := by
  refine BitVec.eq_of_toNat_eq ?_
  have hw := w.isLt
  have hef : w.toNat / 2 ^ 23 % 2 ^ 8 < 256 := by omega
  rw [toNat_pattern _ hef (Nat.mod_lt _ (by norm_num)), ← signBit_eq]
  by_cases h : w.toNat / 2 ^ 31 = 1
  · rw [beq_iff_eq.2 h, if_pos rfl]
    omega
  · rw [beq_eq_false_iff_ne.2 h, if_neg Bool.false_ne_true]
    omega

theorem toBits_subnormal (sign : Bool) (frac : Nat) (neg : Bool) (e : Nat) {m : Nat} (h : m < 2 ^ 23) :
    toBits sign frac (.fin neg e m) = pattern neg 0 m :=
  if_pos h

theorem toBits_normal (sign : Bool) (frac : Nat) (neg : Bool) (e : Nat) {m : Nat} (h : 2 ^ 23 ≤ m) :
    toBits sign frac (.fin neg e m) = pattern neg (e + 1) (m - 2 ^ 23) :=
  if_neg h.not_gt

/-- A value is recovered from its pattern, a NaN from any NaN pattern. -/
theorem ofBits_toBits (sign : Bool) {frac : Nat} {x : F32} (hpos : 1 ≤ frac) (hlt : frac < 2 ^ 23)
    (hx : x.canonical = true) : ofBits (toBits sign frac x) = x := by
  cases x with
  | nan =>
    obtain ⟨-, hef, hfr⟩ := pattern_fields sign (ef := 255) (by norm_num) hlt
    rw [toBits, ofBits_special hef, hfr, if_neg (by omega)]
  | inf neg =>
    obtain ⟨hneg, hef, hfr⟩ := pattern_fields neg (ef := 255) (frac := 0) (by norm_num) (by norm_num)
    rw [toBits, ofBits_special hef, hfr, if_pos rfl, hneg]
  | fin neg e m =>
    obtain ⟨hm, he, hnorm⟩ := canonical_fin.1 hx
    by_cases hsub : m < 2 ^ 23
    · obtain ⟨hneg, hef, hfr⟩ := pattern_fields neg (ef := 0) (by norm_num) hsub
      obtain rfl : e = 0 := by omega
      rw [toBits_subnormal _ _ _ _ hsub, ofBits_subnormal hef, hneg, hfr]
    · obtain ⟨hneg, hef, hfr⟩ := pattern_fields neg (ef := e + 1) (frac := m - 2 ^ 23) (by omega) (by omega)
      rw [toBits_normal _ _ _ _ (by omega), ofBits_normal (by omega) (by omega), hneg, hef, hfr,
        Nat.add_sub_cancel, Nat.add_sub_cancel' (by omega)]

/-- A pattern that is no NaN's is recovered from its value. -/
theorem toBits_ofBits (sign : Bool) (frac : Nat) {w : Word} (h : ofBits w ≠ .nan) :
    toBits sign frac (ofBits w) = w := by
  have hw := pattern_of_fields w
  have hfr : w.toNat % 2 ^ 23 < 2 ^ 23 := Nat.mod_lt _ (by norm_num)
  by_cases h255 : w.toNat / 2 ^ 23 % 2 ^ 8 = 255
  · rw [ofBits_special h255] at h ⊢
    by_cases hzero : w.toNat % 2 ^ 23 = 0
    · rw [h255, hzero] at hw
      rwa [if_pos hzero, toBits]
    · exact absurd (if_neg hzero) h
  · by_cases h0 : w.toNat / 2 ^ 23 % 2 ^ 8 = 0
    · rw [h0] at hw
      rwa [ofBits_subnormal h0, toBits_subnormal _ _ _ _ hfr]
    · rwa [ofBits_normal h0 h255, toBits_normal _ _ _ _ (Nat.le_add_right _ _), Nat.add_sub_cancel_left,
        Nat.sub_add_cancel (Nat.pos_of_ne_zero h0)]

/-! ## Integers -/

theorem i2f_of_ne_zero {v : ℤ} (h : v ≠ 0) : i2f v = round (decide (v < 0)) v.natAbs 298 :=
  if_neg h

theorem canonical_i2f (v : ℤ) : (i2f v).canonical = true := by
  by_cases h : v = 0
  · exact h ▸ rfl
  · exact i2f_of_ne_zero h ▸ canonical_round _ (Int.natAbs_ne_zero.2 h) _

/-- Settles O46: the fields of a pattern, both round trips, and closure of the operations. -/
theorem binaryValuesAndPatterns : Obligations.BinaryValuesAndPatterns := by
  unfold Obligations.BinaryValuesAndPatterns
  refine ⟨fun w => ⟨fun h255 h0 => ?_, fun h255 h0 => ?_, ofBits_value⟩,
    fun sign frac x hpos hlt hx => ofBits_toBits sign hpos hlt hx, fun sign frac w h => toBits_ofBits sign frac h,
    canonical_ofBits, fun a b v _ _ => ⟨canonical_fadd a b, canonical_fsub a b, canonical_fmul a b, canonical_i2f v⟩⟩
  · exact (ofBits_special h255).trans (if_pos h0)
  · exact (ofBits_special h255).trans (if_neg h0)

end Sys2Proof.F32
end

section
/-! PROOFS. Binary32: conversion from integers and to 24-bit samples (41_biquad.md R151, R156). -/

namespace Sys2Proof.F32

open Sys2Proof Sys2Proof.Machine

/-! ## From integers -/

theorem roundsTo_i2f (v : ℤ) : RoundsTo (v : ℚ) (i2f v) := by
  by_cases h : v = 0
  · subst h
    exact_mod_cast roundsTo_zero false
  · have hround := roundsTo_round_int h 298
    rw [i2f_of_ne_zero h]
    simpa using hround

/-- The finite value nearest to a number that is itself a value is that number. -/
theorem value_eq_of_roundsTo {exact : ℚ} {r x : F32} (h : RoundsTo exact r)
    (hlt : |exact| < 2 ^ 128 - 2 ^ 103) (hc : x.canonical = true) (hf : x.finite = true) (hx : x.value = exact) :
    r.value = exact := by
  obtain ⟨hle, -⟩ := (h.nearest hlt).2 x hc hf
  rw [hx, sub_self, abs_zero] at hle
  exact (sub_eq_zero.1 (abs_nonpos_iff.1 hle)).symm

/-- Magnitudes up to 2^24 are values of the format, with the leading bit moved to bit 23. -/
theorem exists_value_eq_nat (neg : Bool) {m : Nat} (hm : m ≤ 2 ^ 24) :
    ∃ x : F32, x.canonical = true ∧ x.finite = true ∧ x.value = signFactor neg * m := by
  obtain rfl | hpos := Nat.eq_zero_or_pos m
  · exact ⟨.fin neg 0 0, rfl, rfl, by simp [value_fin]⟩
  · obtain hlt | rfl := hm.lt_or_eq
    · have hlog : Nat.log2 m ≤ 23 := Nat.lt_succ_iff.1 ((Nat.log2_lt hpos.ne').2 hlt)
      obtain ⟨d, hd⟩ := Nat.exists_eq_add_of_le hlog
      have hlo : 2 ^ 23 ≤ m * 2 ^ d := by
        rw [hd, pow_add]
        gcongr
        exact Nat.log2_self_le hpos.ne'
      have hhi : m * 2 ^ d < 2 ^ 24 := by
        rw [show 24 = Nat.log2 m + 1 + d by omega, pow_add]
        gcongr
        exact Nat.lt_log2_self
      have hunit : (2 : ℚ) ^ d * 2 ^ (((149 - d : Nat) : ℤ) - 149) = 1 := by
        have hexp : (d : ℤ) + (((149 - d : Nat) : ℤ) - 149) = 0 := by omega
        rw [← zpow_natCast, ← zpow_add₀ two_ne_zero, hexp, zpow_zero]
      refine ⟨.fin neg (149 - d) (m * 2 ^ d), canonical_fin.2 ⟨hhi, by omega, .inr hlo⟩, rfl, ?_⟩
      rw [value_fin]
      push_cast
      linear_combination signFactor neg * m * hunit
    · refine ⟨.fin neg 150 (2 ^ 23), rfl, rfl, ?_⟩
      rw [value_fin]
      norm_num
      ring

/-- In this range no integer overflows. -/
theorem i2f_finite {v : ℤ} (h : |v| ≤ 2 ^ 32) : (i2f v).finite = true := by
  have hv : |(v : ℚ)| ≤ 2 ^ 32 := by exact_mod_cast h
  exact ((roundsTo_i2f v).nearest (hv.trans_lt (by norm_num))).1

/-- Integers up to 2^24 convert exactly. -/
theorem i2f_value {v : ℤ} (h : |v| ≤ 2 ^ 24) : (i2f v).value = v := by
  have hv : |(v : ℚ)| ≤ 2 ^ 24 := by exact_mod_cast h
  have hm : v.natAbs ≤ 2 ^ 24 := by
    obtain ⟨hlo, hhi⟩ := abs_le.1 h
    omega
  obtain ⟨x, hc, hf, hx⟩ := exists_value_eq_nat (decide (v < 0)) hm
  rw [← int_eq_signFactor_mul] at hx
  exact value_eq_of_roundsTo (roundsTo_i2f v) (hv.trans_lt (by norm_num)) hc hf hx

/-! ## To samples -/

/-- `truncMag` is the magnitude's integer part. -/
theorem truncMag_eq_floor (e m : Nat) : (truncMag e m : ℤ) = ⌊(m : ℚ) * 2 ^ ((e : ℤ) - 149)⌋ := by
  unfold truncMag
  split
  case isTrue h =>
    have hexp : (e : ℤ) - 149 = ((e - 149 : Nat) : ℤ) := by omega
    rw [hexp, zpow_natCast]
    exact_mod_cast (Int.floor_natCast (R := ℚ) (m * 2 ^ (e - 149))).symm
  case isFalse h =>
    have hexp : (e : ℤ) - 149 = -((149 - e : Nat) : ℤ) := by omega
    have hfloor := Rat.floor_natCast_div_natCast m (2 ^ (149 - e))
    rw [hexp, zpow_neg, zpow_natCast, ← div_eq_mul_inv]
    push_cast at hfloor ⊢
    exact hfloor.symm

/-- `f2s24` of a finite value: toward zero, then saturated (41_biquad.md R156). -/
theorem f2s24_eq {t : F32} (ht : t.finite = true) :
    f2s24 t = if 0 ≤ t.value then min ⌊t.value⌋ 8388607 else max ⌈t.value⌉ (-8388608) := by
  match t, ht with
  | .fin neg e m, _ =>
    have hmag : (0 : ℚ) ≤ m * 2 ^ ((e : ℤ) - 149) := by positivity
    rw [value_fin, mul_assoc]
    cases neg with
    | false =>
      rw [signFactor_false, one_mul, if_pos hmag, f2s24, truncMag_eq_floor]
    | true =>
      rw [signFactor_true, neg_one_mul, f2s24, truncMag_eq_floor, Int.ceil_neg]
      split
      case isTrue h =>
        rw [le_antisymm (neg_nonneg.1 h) hmag]
        rfl
      case isFalse h => rfl

theorem f2s24_high {t : F32} (ht : t.finite = true) (h : 8388607 ≤ t.value) : f2s24 t = 8388607 := by
  have hfloor : (8388607 : ℤ) ≤ ⌊t.value⌋ := Int.le_floor.2 (by exact_mod_cast h)
  rw [f2s24_eq ht, if_pos (by linarith), min_eq_right hfloor]

theorem f2s24_low {t : F32} (ht : t.finite = true) (h : t.value ≤ -8388608) : f2s24 t = -8388608 := by
  have hceil : ⌈t.value⌉ ≤ (-8388608 : ℤ) := Int.ceil_le.2 (by exact_mod_cast h)
  rw [f2s24_eq ht, if_neg (by linarith), max_eq_right hceil]

theorem f2s24_between {t : F32} (ht : t.finite = true) (hlo : -8388608 < t.value) (hhi : t.value < 8388607) :
    f2s24 t = if 0 ≤ t.value then ⌊t.value⌋ else ⌈t.value⌉ := by
  have hfloor : ⌊t.value⌋ ≤ 8388607 := Int.floor_le_iff.2 (by push_cast; linarith)
  have hceil : -8388608 ≤ ⌈t.value⌉ := Int.le_ceil_iff.2 (by push_cast; linarith)
  rw [f2s24_eq ht, min_eq_left hfloor, max_eq_left hceil]

/-- A 24-bit sample comes back from its conversion. -/
theorem f2s24_i2f {v : ℤ} (hlo : -8388608 ≤ v) (hhi : v ≤ 8388607) : f2s24 (i2f v) = v := by
  have habs : |v| ≤ 2 ^ 24 := abs_le.2 ⟨by omega, by omega⟩
  rw [f2s24_eq (i2f_finite (habs.trans (by norm_num))), i2f_value habs, Int.floor_intCast, Int.ceil_intCast,
    min_eq_left hhi, max_eq_left hlo, ite_self]

/-- Settles O48: `i2f` rounds once and is exact up to 2^24; `f2s24` truncates and saturates. -/
theorem sampleConversionExact : Obligations.SampleConversionExact := by
  unfold Obligations.SampleConversionExact
  refine ⟨fun v => ⟨i2f_finite ?_, roundsTo_i2f _⟩, rfl,
    fun t ht => ⟨f2s24_high ht, f2s24_low ht, f2s24_between ht⟩, rfl, rfl, rfl, fun v hlo hhi => ?_⟩
  · have hmin := v.le_toInt
    have hmax := v.toInt_lt
    exact abs_le.2 ⟨by omega, by omega⟩
  · have habs : |v| ≤ 2 ^ 24 := abs_le.2 ⟨hlo, hhi⟩
    exact ⟨i2f_finite (habs.trans (by norm_num)), i2f_value habs, f2s24_i2f⟩

end Sys2Proof.F32
end

section
/-! PROOFS. A step's effect, said once with its cause: which agent step it was, and for a write which register, window
or command it reached. Every claim about who may write a field goes through it. -/

namespace Sys2Proof.Machine

open Sys2Proof

/-! ## Command words (30_encoding.md R110 to R117) -/

theorem encodeN_opField {w : Word} (h : w.extractLsb' 8 24 = 0) : encodeN (opField w) = w := by
  unfold encodeN opField
  rw [← BitVec.ofNat_eq_ofNat, ← h, BitVec.extractLsb'_append_extractLsb'_eq_extractLsb' (by rfl)]
  exact BitVec.extractLsb'_eq_self

theorem encodeI_fields {w : Word} (h : w.extractLsb' 16 16 = 0) : encodeI (opField w) (idField w) = w := by
  unfold encodeI opField idField
  rw [← BitVec.ofNat_eq_ofNat, ← h, BitVec.extractLsb'_append_extractLsb'_eq_extractLsb' (by rfl),
    BitVec.extractLsb'_append_extractLsb'_eq_extractLsb' (by rfl)]
  exact BitVec.extractLsb'_eq_self

theorem encodeP_fields {w : Word} (h : w.extractLsb' 29 3 = 0) :
    encodeP (opField w) (nfrField w) (vsField w) = w := by
  unfold encodeP opField nfrField vsField
  rw [← BitVec.ofNat_eq_ofNat, ← h, BitVec.extractLsb'_append_extractLsb'_eq_extractLsb' (by rfl),
    BitVec.extractLsb'_append_extractLsb'_eq_extractLsb' (by rfl),
    BitVec.extractLsb'_append_extractLsb'_eq_extractLsb' (by rfl)]
  exact BitVec.extractLsb'_eq_self

theorem encodeR_fields (w : Word) : encodeR (opField w) (startField w) (lenField w) = w := by
  unfold encodeR opField startField lenField
  rw [BitVec.extractLsb'_append_extractLsb'_eq_extractLsb' (by rfl),
    BitVec.extractLsb'_append_extractLsb'_eq_extractLsb' (by rfl)]
  exact BitVec.extractLsb'_eq_self

theorem formatN_ok {w : Word} {i j : Instr} (h : formatN w i = .ok j) : i = j ∧ encodeN (opField w) = w := by
  unfold formatN at h
  split at h
  · rename_i hz
    cases h
    exact ⟨rfl, encodeN_opField hz⟩
  · cases h

theorem formatI_ok {w : Word} {i : BitVec 8 → Instr} {j : Instr} (h : formatI w i = .ok j) :
    i (idField w) = j ∧ encodeI (opField w) (idField w) = w := by
  unfold formatI at h
  split at h
  · rename_i hz
    cases h
    exact ⟨rfl, encodeI_fields hz⟩
  · cases h

theorem formatP_ok {w : Word} {i : BitVec 12 → BitVec 9 → Instr} {j : Instr} (h : formatP w i = .ok j) :
    i (nfrField w) (vsField w) = j ∧ encodeP (opField w) (nfrField w) (vsField w) = w := by
  unfold formatP at h
  split at h
  · rename_i hz
    cases h
    exact ⟨rfl, encodeP_fields hz⟩
  · cases h

theorem opField_eq_ofNat {w : Word} {n : Nat} (h : (opField w).toNat = n) : opField w = BitVec.ofNat 8 n := by
  rw [← h, BitVec.ofNat_toNat, BitVec.setWidth_eq]

/-- A word that decodes is the encoding of what it decodes to (30_encoding.md R117). -/
theorem encode_of_decodeWord {w : Word} {i : Instr} (h : decodeWord w = .ok i) : encode i = w := by
  unfold decodeWord at h
  split at h
  case h_15 => cases h
  all_goals
    rename_i hop
    replace hop := opField_eq_ofNat hop
  case h_3 =>
    obtain ⟨rfl, hw⟩ := formatP_ok h
    rwa [hop] at hw
  case h_4 | h_6 | h_7 =>
    obtain ⟨rfl, hw⟩ := formatI_ok h
    rwa [hop] at hw
  case h_12 =>
    cases h
    have hw := encodeR_fields w
    rwa [hop] at hw
  all_goals
    obtain ⟨rfl, hw⟩ := formatN_ok h
    rwa [hop] at hw

/-! ## The register map (10_state.md R33) and the address decode -/

/-- The word of the map at which a register stands (10_state.md R33). -/
def Reg.place : Reg → Nat
  | .cmd => 0
  | .status => 1
  | .ctrl => 2
  | .hostVol => 3
  | .localAtt => 4
  | .volScale => 5
  | .active => 6
  | .crcResult => 7
  | .fullCnt => 8
  | .partCnt => 9
  | .holdCnt => 10
  | .heldL => 11
  | .heldR => 12
  | .srcAvail => 13
  | .dmaPos => 14

theorem place_of_registerAt {k : Nat} {r : Reg} (h : registerAt k = some r) : k = r.place := by
  unfold registerAt at h
  split at h <;> cases h <;> rfl

theorem wordOnly_eq {size : AccessSize} {t u : Target} (h : wordOnly size t = u) (hu : u ≠ .fault) :
    size = .word ∧ t = u := by
  unfold wordOnly at h
  split at h
  · exact ⟨by assumption, h⟩
  · exact absurd h.symm hu

/-- A register is reached by the 32-bit access at its own offset and by no other. -/
theorem target_register {hf : Nat} {addr : Offset} {size : AccessSize} {r : Reg}
    (h : target hf addr size = .register r) : addr = BitVec.ofNat 15 (4 * r.place) ∧ size = .word := by
  unfold target at h
  simp only at h
  split_ifs at h with hal
  · obtain ⟨rfl, hr⟩ := wordOnly_eq h nofun
    split at hr
    · rename_i r' hr'
      cases hr
      refine ⟨?_, rfl⟩
      rw [← place_of_registerAt hr', Nat.mul_div_cancel' (Nat.dvd_of_mod_eq_zero (not_not.1 hal))]
      simp
    · cases hr
  all_goals cases (wordOnly_eq h nofun).2

/-- A register's offset reaches it, whatever `HALF_FRAMES`. -/
theorem target_place (hf : Nat) (r : Reg) : target hf (BitVec.ofNat 15 (4 * r.place)) .word = .register r := by
  cases r <;> rfl

/-- An access that reaches `STORE` lies inside its window (20_memory.md R85). -/
theorem target_store {hf : Nat} {addr : Offset} {size : AccessSize} {i : Nat}
    (h : target hf addr size = .store i) : 0x1000 ≤ addr.toNat ∧ addr.toNat + size.bytes ≤ 0x1000 + 3816 := by
  unfold target at h
  simp only at h
  split_ifs at h with hal hlow hin
  · obtain ⟨rfl, hr⟩ := wordOnly_eq h nofun
    split at hr <;> cases hr
  · cases size <;> simp only [AccessSize.bytes, Config.storeBytes] at hal hin ⊢ <;> omega
  all_goals cases (wordOnly_eq h nofun).2

/-! ## What a step does, and who did it -/

/-- What a step from `s` can do to `u`, which is `s` with the input used up, and the agent step it then was. -/
inductive StepEffect (s u : State) : State → Prop
  /-- A read, an ignored write or a `BusFault`: the reply only. -/
  | replied (r : Reply) : StepEffect s u (u.replied r)
  | rejected : StepEffect s u (u.replied .ack).reject
  | command {i : Instr} {t : State} (hi : s.issues i) (ht : exec i (u.replied .ack) = .next t) : StepEffect s u t
  | status {w : Word} (hw : s.next (.host (.write 0x004 .word w))) : StepEffect s u ((u.replied .ack).writeStatus w)
  | ctrl {w : Word} (hw : s.next (.host (.write 0x008 .word w))) : StepEffect s u ((u.replied .ack).writeCtrl w)
  | hostVol {w : Word} (hw : s.next (.host (.write 0x00C .word w))) : StepEffect s u ((u.replied .ack).writeHostVol w)
  | localAtt {w : Word} (hw : s.next (.host (.write 0x010 .word w))) :
      StepEffect s u ((u.replied .ack).writeLocalAtt w)
  | store {addr : Offset} {size : AccessSize} {v : Word} (hw : s.next (.host (.write addr size v)))
      (hlo : 0x1000 ≤ addr.toNat) (hhi : addr.toNat + size.bytes ≤ 0x1000 + 3816) (i : Nat) :
      StepEffect s u ((u.replied .ack).withStore (writeStore u.store i v size))
  | work (k : Nat) (v : Word) : StepEffect s u { u.replied .ack with work := u.work.set k v }
  | dma (hd : s.next .dma) : StepEffect s u (dmaStep u)
  | src (b : Byte) : StepEffect s u (srcStep u b)
  | reset (hr : s.next .reset) : StepEffect s u (hardReset u)

theorem stepEffect_of_writeReg {s u t : State} {r : Reg} {w : Word}
    (hs : s.next (.host (.write (BitVec.ofNat 15 (4 * r.place)) .word w)))
    (h : writeReg r w (u.replied .ack) = .next t) : StepEffect s u t := by
  cases r with
  | cmd =>
    rcases issue_cases h with ⟨i, hi, ht⟩ | ⟨-, rfl⟩
    · rw [← encode_of_decodeWord hi] at hs
      exact .command hs ht
    · exact .rejected
  | status => cases h; exact .status hs
  | ctrl => cases h; exact .ctrl hs
  | hostVol => cases h; exact .hostVol hs
  | localAtt => cases h; exact .localAtt hs
  | _ => cases h; exact .replied .ack

theorem stepEffect_of_hostWrite {s u t : State} {addr : Offset} {size : AccessSize} {v : Word}
    (hs : s.next (.host (.write addr size v))) (h : hostWrite addr size v u = .next t) : StepEffect s u t := by
  unfold hostWrite at h
  split at h
  case h_1 r hr =>
    obtain ⟨rfl, rfl⟩ := target_register hr
    exact stepEffect_of_writeReg hs h
  case h_2 i hi =>
    cases h
    exact .store hs (target_store hi).1 (target_store hi).2 i
  case h_4 k _ => cases h; exact .work k v
  all_goals cases h; exact .replied _

theorem next_of_nextAccess {s : State} {a : HostAccess} (h : s.nextAccess = some a) : s.next (.host a) := by
  unfold State.nextAccess at h
  split at h <;> cases h
  assumption

theorem stepEffect_of_step {s t : State} (h : step s = .next t) :
    ∃ inputs drawn, StepEffect s { s with inputs := inputs, drawn := drawn } t := by
  obtain ⟨inputs, drawn, hu⟩ := nextInput_state s
  refine ⟨inputs, drawn, hu ▸ ?_⟩
  rcases step_cases h with ⟨_, _, _, rfl⟩ | ⟨_, _, _, hw, ht⟩ | ⟨hd, rfl⟩ | ⟨b, _, rfl⟩ | ⟨hr, rfl⟩
  · exact .replied _
  · exact stepEffect_of_hostWrite (next_of_nextAccess hw) ht
  · exact .dma hd
  · exact .src b
  · exact .reset hr

end Sys2Proof.Machine
end

section
/-! PROOFS. The invariant (O5): each operation keeps it, then each command, then each agent step. Where an update
touches no field the invariant speaks of, the proof is the old invariant read at the new state
(`{ h with params := h.params }`). -/

namespace Sys2Proof.Machine

open Sys2Proof

/-! ## `BQS` holds binary32 values (10_state.md R51) -/

/-- Every accumulator of `BQS` is a binary32 value. -/
abbrev BqsCanonical (b : Vector Delay 20) : Prop := ∀ i : Fin 20, (b.get i).canonical

theorem bqsCanonical_zero : BqsCanonical zeroBqs := by
  intro i
  simp [zeroBqs, Vector.get_replicate, Delay.canonical, F32.canonical]

theorem canonical_sectionNext (co : Coefs) (d : Delay) (x y : F32) : (sectionNext co d x y).canonical :=
  ⟨F32.canonical_fadd _ _, F32.canonical_fsub _ _⟩

theorem bqsCanonical_setDelay {b : Vector Delay 20} (hb : BqsCanonical b) (f : Fin 10) (c : Fin 2) {d : Delay}
    (hd : d.canonical) : BqsCanonical (setDelay b f c d) := by
  intro i
  have hget : (setDelay b f c d).get i = if (bqsIndex f c).val = i.val then d else b.get i :=
    Vector.getElem_set (bqsIndex f c).isLt i.isLt
  rw [hget]
  split
  · exact hd
  · exact hb i

theorem bqsCanonical_cascadeFrom (m : Memory) (p : Fin 10) (c : Fin 2) (ks : List (Fin 10)) {b : Vector Delay 20}
    (hb : BqsCanonical b) (x : F32) : BqsCanonical (cascadeFrom m p c ks b x).1 := by
  induction ks generalizing b x with
  | nil => exact hb
  | cons k ks ih =>
    unfold cascadeFrom
    split
    · exact ih (bqsCanonical_setDelay hb k c (canonical_sectionNext _ _ _ _)) _
    · exact ih hb x

theorem bqsCanonical_cascadeWords (m : Memory) (p : Fin 10) (g : F32) (words : List Word) (c : Fin 2)
    {b : Vector Delay 20} (hb : BqsCanonical b) : BqsCanonical (cascadeWords m p g c b words).1 := by
  induction words generalizing b c with
  | nil => exact hb
  | cons v rest ih => exact ih (c + 1) (bqsCanonical_cascadeFrom m p c _ hb _)

/-! ## Processed samples are 24-bit values (10_state.md R45) -/

theorem inSampleRange_zero : inSampleRange 0 := by decide

theorem inSampleRange_sampleOut (y : F32) : inSampleRange (sampleOut y) := by
  unfold inSampleRange
  rw [sampleOut_toInt]
  exact f2s24_range _

theorem inSampleRange_signExtend (v : BitVec 24) : inSampleRange (v.signExtend 32) := by
  unfold inSampleRange
  rw [BitVec.toInt_signExtend_of_le (by decide)]
  have hmin := v.le_toInt
  have hmax := v.toInt_lt
  omega

theorem inSampleRange_cascadeWords (m : Memory) (p : Fin 10) (g : F32) (words : List Word) (c : Fin 2)
    (b : Vector Delay 20) : ∀ w ∈ (cascadeWords m p g c b words).2, inSampleRange w := by
  induction words generalizing b c with
  | nil => simp [cascadeWords]
  | cons v rest ih =>
    intro w hw
    rcases List.mem_cons.1 hw with rfl | hw
    · exact inSampleRange_sampleOut _
    · exact ih _ _ w hw

/-- Both engines of the EQ dispatch answer 24-bit samples (R156, 00_scope.md R8). -/
theorem inSampleRange_eqDispatch (s : State) (words : List Word) (vs : Nat) :
    ∀ w ∈ (eqDispatch s words vs).2, inSampleRange w := by
  unfold eqDispatch
  split
  · rename_i p hp
    rw [bqProcess_some hp]
    exact inSampleRange_cascadeWords _ _ _ _ _ _
  · intro w hw
    obtain ⟨k, -, rfl⟩ := List.mem_map.1 hw
    exact inSampleRange_signExtend _

/-- What holds of a list's members and of the default holds of every `getD`. -/
theorem getD_of_forall_mem {α : Type} {P : α → Prop} {l : List α} {d : α} (h : ∀ x ∈ l, P x) (hd : P d) (k : Nat) :
    P (l.getD k d) := by
  rcases Nat.lt_or_ge k l.length with hk | hk
  · rw [List.getD_eq_getElem _ _ hk]
    exact h _ (List.getElem_mem hk)
  · rwa [List.getD_eq_default _ _ hk]

/-! ## The volume scale is in 0..256 (10_state.md R41) -/

theorem hostCurve_le {p : Config.Params} (h : ∀ v ∈ p.volCurve, v ≤ Config.volUnity) (db : Int) :
    hostCurve p db ≤ 256 :=
  getD_of_forall_mem (P := (· ≤ 256)) h (Nat.zero_le _) _

theorem localCurve_le {att : Nat} (h : att ≤ 100) : localCurve att ≤ 256 := by
  have : att * att ≤ 100 * 100 := Nat.mul_le_mul h h
  unfold localCurve
  omega

/-- A product of two factors of at most 256, shifted right by 8, is at most 256. -/
theorem mul_div_256_le {a b : Nat} (ha : a ≤ 256) (hb : b ≤ 256) : a * b / 256 ≤ 256 := by
  have : a * b ≤ 256 * 256 := Nat.mul_le_mul ha hb
  omega

theorem scaleProduct_le {v h l : Nat} (hv : v ≤ 256) (hh : h ≤ 256) (hl : l ≤ 256) : scaleProduct v h l ≤ 256 :=
  mul_div_256_le (mul_div_256_le hv hh) hl

theorem volscale_le {s : State} (h : s.Inv) : s.volscale ≤ 256 := by
  obtain ⟨-, -, -, -, -, -, hcurve, hroom, -⟩ := h.params
  unfold State.volscale
  split
  · exact Nat.zero_le _
  · exact scaleProduct_le (hostCurve_le hcurve _) (hroom _) (localCurve_le h.localAtt)

/-! ## What the fill engine keeps -/

/-- The invariant does not speak of the inputs to come. -/
theorem inv_withInputs {s : State} (h : s.Inv) (inputs : List Input) (drawn : Nat) :
    ({ s with inputs := inputs, drawn := drawn } : State).Inv := { h with params := h.params }

theorem inv_withFifo {s : State} (h : s.Inv) {q : List Byte} (hq : q.length ≤ s.params.srcCap) :
    ({ s with fifo := q } : State).Inv := { h with fifo := hq }

theorem inv_bqProcess {s : State} (h : s.Inv) (words : List Word) (vs : Nat) : (bqProcess s words vs).1.Inv := by
  cases hp : s.validActive with
  | none => rwa [bqProcess_none hp]
  | some p =>
    rw [bqProcess_some hp]
    exact { h with bqs := bqsCanonical_cascadeWords _ _ _ _ _ h.bqs }

theorem inv_eqDispatch {s : State} (h : s.Inv) (words : List Word) (vs : Nat) : (eqDispatch s words vs).1.Inv := by
  unfold eqDispatch
  split
  · exact inv_bqProcess h words vs
  · exact { h with params := h.params }

theorem inv_readProcess {s : State} (h : s.Inv) (n : Nat) : (readProcess s n).1.Inv := by
  have hq : (s.fifo.drop (Config.frameBytes * n)).length ≤ s.params.srcCap := by
    rw [List.length_drop]
    exact (Nat.sub_le _ _).trans h.fifo
  have hout := inSampleRange_eqDispatch { s with fifo := s.fifo.drop (Config.frameBytes * n) } (sourceWords s n)
    s.volScale
  exact { inv_eqDispatch (inv_withFifo h hq) (sourceWords s n) s.volScale with
    held := ⟨getD_of_forall_mem hout inSampleRange_zero _, getD_of_forall_mem hout inSampleRange_zero _⟩ }

theorem readProcess_params (s : State) (n : Nat) : (readProcess s n).1.params = s.params := by
  obtain ⟨b, k, l, e⟩ := readProcess_state s n
  rw [e]

theorem inv_withHalf {s : State} (h : s.Inv) (k : Fin 2) {half : List Word}
    (hhalf : half.length = 2 * s.params.halfFrames) : (s.withHalf k half).Inv :=
  { h with buf := length_writeHalf k hhalf h.buf }

theorem inv_fullFill {s : State} (h : s.Inv) (k : Fin 2) (hav : s.params.halfBytes ≤ s.avail) :
    (fullFill s k).Inv := by
  have hlen : ((readProcess s s.params.halfFrames).2.map (pack s.params.outPack)).length =
      2 * (readProcess s s.params.halfFrames).1.params.halfFrames := by
    rw [List.length_map, length_readProcess hav, readProcess_params]
  exact { inv_withHalf (inv_readProcess h _) k hlen with params := (inv_readProcess h _).params }

theorem inv_partialFill {s : State} (h : s.Inv) (k : Fin 2) (hav : s.avail < s.params.halfBytes) :
    (partialFill s k).Inv := by
  have hn : 6 * (s.avail / 6) ≤ s.avail := Nat.mul_div_le _ _
  have hlen : ((readProcess s (s.avail / 6)).2.map (pack s.params.outPack) ++
      heldFrames (readProcess s (s.avail / 6)).1 (s.params.halfFrames - s.avail / 6)).length =
        2 * (readProcess s (s.avail / 6)).1.params.halfFrames := by
    rw [List.length_append, List.length_map, length_readProcess hn, length_heldFrames, readProcess_params]
    simp only [Config.Params.halfBytes, Config.frameBytes] at hav
    omega
  exact { inv_withHalf (inv_readProcess h _) k hlen with params := (inv_readProcess h _).params }

theorem inv_holdFill {s : State} (h : s.Inv) (k : Fin 2) : (holdFill s k).Inv :=
  { inv_withHalf h k (length_heldFrames s s.params.halfFrames) with params := h.params }

theorem inv_fillHalf {s : State} (h : s.Inv) (k : Fin 2) : (fillHalf s k).Inv := by
  unfold fillHalf
  split
  · exact inv_fullFill h k (by assumption)
  · split
    · exact inv_partialFill h k (by omega)
    · exact inv_holdFill h k

theorem inv_latchVolume {s : State} (h : s.Inv) : s.latchVolume.Inv := { h with volScale := volscale_le h }

theorem inv_setNf {s : State} (h : s.Inv) (k : Fin 2) (v : Bool) : (s.setNf k v).Inv := by
  unfold State.setNf
  split <;> exact { h with params := h.params }

theorem inv_serviceIfFlagged {s : State} (h : s.Inv) (k : Fin 2) : (serviceIfFlagged s k).Inv := by
  unfold serviceIfFlagged
  split
  · exact inv_setNf (inv_fillHalf (inv_latchVolume h) k) k false
  · exact h

theorem inv_prebufFills {s : State} (h : s.Inv) : (prebufFills s).Inv := by
  unfold prebufFills
  split
  · rename_i hav
    have hfirst : (prebufFill s 0).Inv := inv_fullFill (inv_latchVolume h) 0 hav
    simp only
    split
    · rename_i hav'
      exact inv_fullFill (inv_latchVolume hfirst) 1 hav'
    · exact hfirst
  · exact h

theorem two_mul_halfFrames_pos {p : Config.Params} (h : p.wf) : 0 < 2 * p.halfFrames := by
  obtain ⟨⟨hpos, -⟩, -⟩ := h
  omega

theorem inv_taskPrebuf {s : State} (h : s.Inv) : (taskPrebuf s).Inv := by
  unfold taskPrebuf
  split
  · exact h
  · have hfills := inv_prebufFills h
    exact { hfills with dmaPos := two_mul_halfFrames_pos hfills.params, dmaRun := rfl, amp := rfl }

/-! ## Commands -/

theorem inv_reject {s : State} (h : s.Inv) : s.reject.Inv := { h with params := h.params }

theorem inv_withStore {s : State} (h : s.Inv) {m : Memory} (hm : m.wf) : (s.withStore m).Inv := { h with store := hm }

theorem inv_withActive {s : State} (h : s.Inv) (id : Option (Fin 10)) : (s.withActive id).Inv :=
  { h with params := h.params }

theorem inv_bqProcessWork {s : State} (h : s.Inv) (nfr : BitVec 12) (vs : BitVec 9) : (bqProcessWork s nfr vs).Inv := by
  obtain ⟨b, k, e⟩ := bqProcess_state s (s.work.take (2 * nfr.toNat)) vs.toNat
  have hlen : ((bqProcess s (s.work.take (2 * nfr.toNat)) vs.toNat).2 ++ s.work.drop (2 * nfr.toNat)).length =
      2 * (bqProcess s (s.work.take (2 * nfr.toNat)) vs.toNat).1.params.halfFrames := by
    rw [List.length_append, length_bqProcess, ← List.length_append, List.take_append_drop, e]
    exact h.work
  exact { inv_bqProcess h (s.work.take (2 * nfr.toNat)) vs.toNat with work := hlen }

theorem inv_exec {i : Instr} {s t : State} (h : s.Inv) (ht : exec i s = .next t) : t.Inv := by
  have hsilent : (List.replicate (4 * s.params.halfFrames) (0 : Word)).length = 4 * s.params.halfFrames :=
    List.length_replicate
  cases i with
  | nop => cases ht; exact h
  | bqReset => cases ht; exact { h with bqs := bqsCanonical_zero }
  | bqProcess nfr vs =>
    cases ht
    split
    · exact inv_bqProcessWork h nfr vs
    · exact inv_reject h
  | setActive id =>
    cases ht
    split
    · split
      · exact inv_reject h
      · exact inv_withActive h _
    · exact inv_reject h
  | clearActive => cases ht; exact inv_withActive h none
  | profCommit id =>
    cases ht
    split
    · exact inv_withStore h (wf_commitStore h.store _)
    · exact inv_reject h
  | profDelete id =>
    cases ht
    split
    · exact inv_withActive (inv_withStore h (wf_deleteStore h.store _)) _
    · exact inv_reject h
  | aoStart =>
    cases ht
    exact { h with
      buf := hsilent, bqs := bqsCanonical_zero, held := ⟨inSampleRange_zero, inSampleRange_zero⟩, amp := rfl }
  | aoStop =>
    cases ht
    exact { h with
      buf := hsilent, dmaPos := two_mul_halfFrames_pos h.params, dmaRun := rfl, mute := ⟨rfl, h.mute.2⟩, amp := rfl }
  | aoTask =>
    cases ht
    split
    · exact h
    · exact inv_taskPrebuf h
    · exact inv_serviceIfFlagged (inv_serviceIfFlagged h 0) 1
  | volCompute => cases ht; exact inv_latchVolume h
  | crcRun start len =>
    cases ht
    split
    · exact { h with params := h.params }
    · exact inv_reject h
  | eqInit =>
    cases ht
    have hstore : (if storeVerdict s.params s.store = .none then s.store else emptyStore s.params).wf := by
      split
      · exact h.store
      · exact wf_emptyStore _
    exact { h with store := hstore, bqs := bqsCanonical_zero }
  | storeSeal => cases ht; exact inv_withStore h (Memory.wf_wr32 h.store _ _)

/-! ## Agent steps -/

theorem inv_replied {s : State} (h : s.Inv) (r : Reply) : (s.replied r).Inv := { h with params := h.params }

theorem wf_writeStore {m : Memory} (h : m.wf) (i : Nat) (v : Word) (size : AccessSize) :
    (writeStore m i v size).wf := by
  cases size with
  | byte => exact Memory.wf_wr8 h _ _
  | half => exact Memory.wf_wr16 h _ _
  | word => exact Memory.wf_wr32 h _ _

theorem legalVolume_range {p : Config.Params} (h : p.volDbMin ≤ p.volDbMax) (w : Word) :
    p.volDbMin ≤ legalVolume p w ∧ legalVolume p w ≤ p.volDbMax :=
  ⟨le_min (le_max_right _ _) h, min_le_right _ _⟩

theorem zero_in_volRange {p : Config.Params} (h : p.wf) : p.volDbMin ≤ 0 ∧ 0 ≤ p.volDbMax := by
  obtain ⟨-, -, -, ⟨-, hmin⟩, ⟨hmax, -⟩, -⟩ := h
  exact ⟨hmin, hmax⟩

theorem inv_dmaStep {s : State} (h : s.Inv) : (dmaStep s).Inv := by
  unfold dmaStep
  split
  · refine { h with dmaPos := Nat.mod_lt _ (two_mul_halfFrames_pos h.params), mute := ⟨h.mute.1, fun f hf => ?_⟩ }
    rcases List.mem_append.1 hf with hf | hf
    · exact h.mute.2 f hf
    · rw [List.mem_singleton.1 hf]
      exact h.mute.1
  · exact h

theorem inv_srcStep {s : State} (h : s.Inv) (b : Byte) : (srcStep s b).Inv := by
  unfold srcStep
  split
  · exact inv_withFifo h (by rw [List.length_append]; assumption)
  · exact h

theorem inv_hardReset {s : State} (h : s.Inv) : (hardReset s).Inv where
  params := h.params
  store := h.store
  buf := List.length_replicate
  work := List.length_replicate
  bqs := bqsCanonical_zero
  hostVol := zero_in_volRange h.params
  localAtt := Nat.zero_le _
  volScale := Nat.zero_le _
  held := ⟨inSampleRange_zero, inSampleRange_zero⟩
  dmaPos := two_mul_halfFrames_pos h.params
  fifo := Nat.zero_le _
  dmaRun := rfl
  mute := ⟨rfl, nofun⟩
  amp := rfl

theorem inv_of_stepEffect {s u t : State} (h : u.Inv) (ht : StepEffect s u t) : t.Inv := by
  have hack := inv_replied h .ack
  have hvol := zero_in_volRange h.params
  cases ht with
  | replied r => exact inv_replied h r
  | rejected => exact inv_reject hack
  | command _ hexec => exact inv_exec hack hexec
  | status _ => exact { hack with params := h.params }
  | ctrl _ => exact { hack with params := h.params }
  | hostVol _ => exact { hack with hostVol := legalVolume_range (hvol.1.trans hvol.2) _ }
  | localAtt _ => exact { hack with localAtt := Nat.min_le_right _ _ }
  | store _ _ _ _ => exact inv_withStore hack (wf_writeStore h.store _ _ _)
  | work k v => exact { hack with work := List.length_set.trans h.work }
  | dma _ => exact inv_dmaStep h
  | src b => exact inv_srcStep h b
  | reset _ => exact inv_hardReset h

/-- Settles O5: whatever agent steps, its operation keeps the invariant. -/
theorem invariantKeptByStep : Obligations.InvariantKeptByStep := by
  unfold Obligations.InvariantKeptByStep
  intro s t h ht
  obtain ⟨inputs, drawn, heff⟩ := stepEffect_of_step ht
  exact inv_of_stepEffect (inv_withInputs h inputs drawn) heff

end Sys2Proof.Machine
end

section
/-! PROOFS. Who writes what: the flags, the sticky bits, the control registers, `STORE`, `BUF` and the fill counters
(O9, O13, O14, O15). What each command writes is said once; the agent steps are read off `StepEffect`. -/

namespace Sys2Proof.Machine

open Sys2Proof

/-- What a command may do to the fields that have few writers: `CMDERR` is not cleared and no needs-fill flag is set;
the flags, `STORE`, `BUF` and the fill counters change under the named commands only. -/
structure CommandWrites (i : Instr) (s t : State) : Prop where
  cmdErr : s.cmdErr = true → t.cmdErr = true
  flagSet : ∀ h, t.nf h = true → s.nf h = true
  flags : (∀ h, t.nf h = s.nf h) ∨ i = .aoTask ∨ i = .aoStop
  store : t.store = s.store ∨ i = .eqInit ∨ i = .storeSeal ∨ (∃ id, i = .profCommit id) ∨ ∃ id, i = .profDelete id
  buf : t.buf = s.buf ∨ i = .aoStart ∨ i = .aoStop ∨ i = .aoTask
  counters : (t.fullCnt = s.fullCnt ∧ t.partCnt = s.partCnt ∧ t.holdCnt = s.holdCnt) ∨ i = .aoTask

section

variable {i : Instr} {s t : State}

/-- A command that leaves the flags, `BUF` and the counters alone, and at most rejects. -/
theorem CommandWrites.of_kept (hc : t.cmdErr = true ∨ t.cmdErr = s.cmdErr) (hn : ∀ h, t.nf h = s.nf h)
    (hs : t.store = s.store ∨ i = .eqInit ∨ i = .storeSeal ∨ (∃ id, i = .profCommit id) ∨ ∃ id, i = .profDelete id)
    (hb : t.buf = s.buf) (hk : t.fullCnt = s.fullCnt ∧ t.partCnt = s.partCnt ∧ t.holdCnt = s.holdCnt) :
    CommandWrites i s t where
  cmdErr h := hc.elim id fun e => e.trans h
  flagSet k hk := (hn k).symm.trans hk
  flags := .inl hn
  store := hs
  buf := .inl hb
  counters := .inl hk

theorem CommandWrites.same : CommandWrites i s s :=
  .of_kept (.inr rfl) (fun _ => rfl) (.inl rfl) rfl ⟨rfl, rfl, rfl⟩

theorem CommandWrites.reject : CommandWrites i s s.reject :=
  .of_kept (.inl rfl) (fun _ => rfl) (.inl rfl) rfl ⟨rfl, rfl, rfl⟩

/-- AO_TASK past its idle cases: both flags are clear afterwards (R244, R245). -/
theorem CommandWrites.of_task (hc : t.cmdErr = s.cmdErr) (hn : ∀ h, t.nf h = false) (hs : t.store = s.store) :
    CommandWrites .aoTask s t where
  cmdErr h := hc.trans h
  flagSet k hk := absurd ((hn k).symm.trans hk) Bool.false_ne_true
  flags := .inr (.inl rfl)
  store := .inl hs
  buf := .inr (.inr (.inr rfl))
  counters := .inr rfl

end

theorem nf_of_clear {s : State} (h0 : s.nf0 = false) (h1 : s.nf1 = false) (h : Fin 2) : s.nf h = false := by
  unfold State.nf
  split <;> assumption

theorem writes_aoStop {s t : State} (h : exec .aoStop s = .next t) : CommandWrites .aoStop s t := by
  cases h
  exact {
    cmdErr := id
    flagSet := fun k hk => absurd hk (by rw [nf_of_clear rfl rfl]; exact Bool.false_ne_true)
    flags := .inr (.inr rfl)
    store := .inl rfl
    buf := .inr (.inr (.inl rfl))
    counters := .inl ⟨rfl, rfl, rfl⟩ }

theorem writes_aoTask {s t : State} (h : exec .aoTask s = .next t) : CommandWrites .aoTask s t := by
  cases h
  split
  · exact .same
  · rcases taskPrebuf_eq s with ⟨-, e⟩ | ⟨-, _, _, _, _, _, _, _, _, _, _, e⟩
    · rw [e]
      exact .same
    · rw [e]
      exact .of_task rfl (nf_of_clear rfl rfl) rfl
  · obtain ⟨_, _, _, _, _, _, _, _, _, _, _, _, e⟩ := taskStreaming_eq s
    rw [e]
    exact .of_task rfl (nf_of_clear rfl rfl) rfl

theorem writes_bqProcess {s t : State} {nfr : BitVec 12} {vs : BitVec 9} (h : exec (.bqProcess nfr vs) s = .next t) :
    CommandWrites (.bqProcess nfr vs) s t := by
  cases h
  split
  · obtain ⟨b, k, e⟩ := bqProcess_state s (s.work.take (2 * nfr.toNat)) vs.toNat
    unfold bqProcessWork
    simp only
    rw [e]
    exact .of_kept (.inr rfl) (fun _ => rfl) (.inl rfl) rfl ⟨rfl, rfl, rfl⟩
  · exact .reject

theorem exec_writes {i : Instr} {s t : State} (h : exec i s = .next t) : CommandWrites i s t := by
  cases i with
  | nop => cases h; exact .same
  | bqReset => cases h; exact .of_kept (.inr rfl) (fun _ => rfl) (.inl rfl) rfl ⟨rfl, rfl, rfl⟩
  | bqProcess nfr vs => exact writes_bqProcess h
  | setActive id =>
    cases h
    split
    · split
      · exact .reject
      · exact .of_kept (.inr rfl) (fun _ => rfl) (.inl rfl) rfl ⟨rfl, rfl, rfl⟩
    · exact .reject
  | clearActive => cases h; exact .of_kept (.inr rfl) (fun _ => rfl) (.inl rfl) rfl ⟨rfl, rfl, rfl⟩
  | profCommit id =>
    cases h
    split
    · exact .of_kept (.inr rfl) (fun _ => rfl) (.inr (.inr (.inr (.inl ⟨id, rfl⟩)))) rfl ⟨rfl, rfl, rfl⟩
    · exact .reject
  | profDelete id =>
    cases h
    split
    · exact .of_kept (.inr (by simp)) (fun _ => by simp [State.nf]) (.inr (.inr (.inr (.inr ⟨id, rfl⟩)))) (by simp)
        (by simp)
    · exact .reject
  | aoStart =>
    cases h
    exact {
      cmdErr := id
      flagSet := fun _ => id
      flags := .inl fun _ => rfl
      store := .inl rfl
      buf := .inr (.inl rfl)
      counters := .inl ⟨rfl, rfl, rfl⟩ }
  | aoStop => exact writes_aoStop h
  | aoTask => exact writes_aoTask h
  | volCompute => cases h; exact .of_kept (.inr rfl) (fun _ => rfl) (.inl rfl) rfl ⟨rfl, rfl, rfl⟩
  | crcRun start len =>
    cases h
    split
    · exact .of_kept (.inr rfl) (fun _ => rfl) (.inl rfl) rfl ⟨rfl, rfl, rfl⟩
    · exact .reject
  | eqInit => cases h; exact .of_kept (.inr rfl) (fun _ => rfl) (.inr (.inl rfl)) rfl ⟨rfl, rfl, rfl⟩
  | storeSeal => cases h; exact .of_kept (.inr rfl) (fun _ => rfl) (.inr (.inr (.inl rfl))) rfl ⟨rfl, rfl, rfl⟩

/-! ## What the DMA and SRC agents change -/

theorem dmaStep_eq (s : State) :
    ∃ late out nf0 nf1 pos, dmaStep s = { s with late := late, out := out, nf0 := nf0, nf1 := nf1, dmaPos := pos } ∧
      (s.late = true → late = true) ∧ (s.nf0 = true → nf0 = true) ∧ (s.nf1 = true → nf1 = true) := by
  unfold dmaStep
  split
  · exact ⟨_, _, _, _, _, rfl, fun h => by simp [h], fun h => by simp [h], fun h => by simp [h]⟩
  · exact ⟨s.late, s.out, s.nf0, s.nf1, s.dmaPos, rfl, id, id, id⟩

theorem srcStep_eq (s : State) (b : Byte) : ∃ q, srcStep s b = { s with fifo := q } := by
  unfold srcStep
  split
  · exact ⟨_, rfl⟩
  · exact ⟨s.fifo, rfl⟩

/-! ## The obligations -/

section

variable {a b : Bool} {P Q : Prop}

theorem set_or_cleared_of_eq (h : b = a) : (a = false → b = true → P) ∧ (a = true → b = false → Q) := by
  subst h
  exact ⟨fun h0 h1 => absurd (h0.symm.trans h1) Bool.false_ne_true,
    fun h1 h0 => absurd (h0.symm.trans h1) Bool.false_ne_true⟩

theorem cleared_of_kept (h : a = true → b = true) : a = true → b = false → P :=
  fun ha hb => absurd (hb.symm.trans (h ha)) Bool.false_ne_true

end

/-- Three fields that keep their values meet every claim about who changes them. -/
theorem claims_of_unchanged {α β γ : Type} {a a' : α} {b b' : β} {c c' : γ} {P Q R : Prop} (ha : a' = a) (hb : b' = b)
    (hc : c' = c) : (a' ≠ a → P) ∧ (b' ≠ b → Q) ∧ (c' ≠ c → R) :=
  ⟨fun h => absurd ha h, fun h => absurd hb h, fun h => absurd hc h⟩

/-- A flag that was set is still set after a DMA step. -/
theorem nf_dmaStep {s : State} {h : Fin 2} (hs : s.nf h = true) : (dmaStep s).nf h = true := by
  obtain ⟨_, _, nf0, nf1, _, e, -, h0, h1⟩ := dmaStep_eq s
  rw [e]
  unfold State.nf at hs ⊢
  split
  · exact h0 (by simpa [*] using hs)
  · exact h1 (by simpa [*] using hs)

/-- Settles O9: of all agent steps, only those named change a flag. -/
theorem needsFillWriters : Obligations.NeedsFillWriters := by
  unfold Obligations.NeedsFillWriters
  intro s t h ht
  obtain ⟨inputs, drawn, heff⟩ := stepEffect_of_step ht
  cases heff with
  | command hi hexec =>
    have hw := exec_writes hexec
    refine ⟨fun h0 h1 => absurd (h0.symm.trans (hw.flagSet h h1)) Bool.false_ne_true, fun h1 h0 => ?_⟩
    rcases hw.flags with hkept | rfl | rfl
    · exact cleared_of_kept (hkept h).trans h1 h0
    · exact .inl hi
    · exact .inr (.inl hi)
  | dma hd => exact ⟨fun _ _ => hd, cleared_of_kept fun h1 => nf_dmaStep h1⟩
  | src b =>
    obtain ⟨q, e⟩ := srcStep_eq { s with inputs := inputs, drawn := drawn } b
    rw [e]
    exact set_or_cleared_of_eq rfl
  | reset hr =>
    exact ⟨fun _ h1 => absurd ((nf_of_clear rfl rfl h).symm.trans h1) Bool.false_ne_true, fun _ _ => .inr (.inr hr)⟩
  | _ => exact set_or_cleared_of_eq rfl

/-- A write to `STATUS` clears a sticky bit exactly by a 1. -/
theorem and_not_eq_ite (a w : Bool) : (a && !w) = if w = true then false else a := by
  cases w <;> simp

/-- Settles O13: the write's effect, and no other step but reset clears either bit. -/
theorem stickyBitsClearedOnlyByHost : Obligations.StickyBitsClearedOnlyByHost := by
  unfold Obligations.StickyBitsClearedOnlyByHost
  refine ⟨fun s w => ?_, fun s t ht => ?_⟩
  · rw [← and_not_eq_ite, ← and_not_eq_ite]
    rfl
  · obtain ⟨inputs, drawn, heff⟩ := stepEffect_of_step ht
    cases heff with
    | command hi hexec =>
      exact ⟨cleared_of_kept (exec_writes hexec).cmdErr, cleared_of_kept (exec_keeps hexec).late.trans⟩
    | rejected => exact ⟨cleared_of_kept fun _ => rfl, cleared_of_kept id⟩
    | status hw =>
      refine ⟨fun h1 h0 => .inr ⟨_, hw, ?_⟩, fun h1 h0 => .inr ⟨_, hw, ?_⟩⟩
      · simpa [State.writeStatus, h1] using h0
      · simpa [State.writeStatus, h1] using h0
    | dma _ =>
      obtain ⟨_, _, _, _, _, e, hlate, -, -⟩ := dmaStep_eq { s with inputs := inputs, drawn := drawn }
      rw [e]
      exact ⟨cleared_of_kept id, cleared_of_kept hlate⟩
    | src b =>
      obtain ⟨q, e⟩ := srcStep_eq { s with inputs := inputs, drawn := drawn } b
      rw [e]
      exact ⟨cleared_of_kept id, cleared_of_kept id⟩
    | reset hr => exact ⟨fun _ _ => .inl hr, fun _ _ => .inl hr⟩
    | _ => exact ⟨cleared_of_kept id, cleared_of_kept id⟩

/-- Settles O14: only its own write and reset change a control register. -/
theorem controlChangesOnlyByHost : Obligations.ControlChangesOnlyByHost := by
  unfold Obligations.ControlChangesOnlyByHost
  intro s t ht
  obtain ⟨inputs, drawn, heff⟩ := stepEffect_of_step ht
  cases heff with
  | command _ hexec =>
    obtain ⟨h1, h2, h3, h4, h5, hvol, hatt⟩ := (exec_keeps hexec).control
    refine claims_of_unchanged ?_ hvol hatt
    rw [h1, h2, h3, h4, h5]
    rfl
  | ctrl hw => exact ⟨fun _ => .inr ⟨_, hw⟩, fun h => absurd rfl h, fun h => absurd rfl h⟩
  | hostVol hw => exact ⟨fun h => absurd rfl h, fun _ => .inr ⟨_, hw⟩, fun h => absurd rfl h⟩
  | localAtt hw => exact ⟨fun h => absurd rfl h, fun h => absurd rfl h, fun _ => .inr ⟨_, hw⟩⟩
  | dma _ =>
    obtain ⟨_, _, _, _, _, e, -⟩ := dmaStep_eq { s with inputs := inputs, drawn := drawn }
    rw [e]
    exact claims_of_unchanged rfl rfl rfl
  | src b =>
    obtain ⟨q, e⟩ := srcStep_eq { s with inputs := inputs, drawn := drawn } b
    rw [e]
    exact claims_of_unchanged rfl rfl rfl
  | reset hr => exact ⟨fun _ => .inl hr, fun _ => .inl hr, fun _ => .inl hr⟩
  | _ => exact claims_of_unchanged rfl rfl rfl

/-- Settles O15: only the steps named write `STORE`, `BUF` or a fill counter. -/
theorem storeBufAndCounterWriters : Obligations.StoreBufAndCounterWriters := by
  unfold Obligations.StoreBufAndCounterWriters
  intro s t ht
  obtain ⟨inputs, drawn, heff⟩ := stepEffect_of_step ht
  cases heff with
  | command hi hexec =>
    obtain ⟨-, -, -, hstore, hbuf, hcnt⟩ := exec_writes hexec
    refine ⟨fun h => ?_, fun h => ?_, fun h => ?_⟩
    · rcases hstore with hkept | rfl | rfl | ⟨id, rfl⟩ | ⟨id, rfl⟩
      · exact absurd hkept h
      · exact .inl hi
      · exact .inr (.inl hi)
      · exact .inr (.inr (.inl ⟨id, hi⟩))
      · exact .inr (.inr (.inr (.inl ⟨id, hi⟩)))
    · rcases hbuf with hkept | rfl | rfl | rfl
      · exact absurd hkept h
      · exact .inr (.inl hi)
      · exact .inr (.inr (.inl hi))
      · exact .inr (.inr (.inr hi))
    · rcases hcnt with ⟨hfull, hpart, hhold⟩ | rfl
      · refine absurd ?_ h
        rw [hfull, hpart, hhold]
        rfl
      · exact .inl hi
  | store hw hlo hhi i =>
    exact ⟨fun _ => .inr (.inr (.inr (.inr ⟨_, _, _, hw, hlo, hhi⟩))), fun h => absurd rfl h, fun h => absurd rfl h⟩
  | dma _ =>
    obtain ⟨_, _, _, _, _, e, -⟩ := dmaStep_eq { s with inputs := inputs, drawn := drawn }
    rw [e]
    exact claims_of_unchanged rfl rfl rfl
  | src b =>
    obtain ⟨q, e⟩ := srcStep_eq { s with inputs := inputs, drawn := drawn } b
    rw [e]
    exact claims_of_unchanged rfl rfl rfl
  | reset hr => exact ⟨fun h => absurd rfl h, fun _ => .inl hr, fun _ => .inr ⟨hr, rfl, rfl, rfl⟩⟩
  | _ => exact claims_of_unchanged rfl rfl rfl

end Sys2Proof.Machine
end

section
/-! PROOFS. The register map: what each register reads and what a write to it stores (O23 to O26), and what everything
reads after reset (O7). -/

namespace Sys2Proof.Machine

open Sys2Proof

/-! ## Flags and codes as numbers -/

theorem bit_lt_two (b : Bool) : bit b < 2 := by cases b <;> decide

theorem bit_eq_one (b : Bool) : decide (bit b = 1) = b := by cases b <;> rfl

theorem PipeState.code_lt (p : PipeState) : p.code < 4 := by cases p <;> decide

theorem Reason.code_lt (r : Reason) : r.code < 4 := by cases r <;> decide

theorem FillKind.code_lt (k : FillKind) : k.code < 4 := by cases k <;> decide

/-- A bit of a word, by the number the word is. -/
theorem getLsbD_of_div_mod {w : Word} {k : Nat} {b : Bool} (h : w.toNat / 2 ^ k % 2 = bit b) : w.getLsbD k = b := by
  rw [BitVec.getLsbD, Nat.testBit_eq_decide_div_mod_eq, h, bit_eq_one]

theorem bit_getLsbD (w : Word) (k : Nat) : bit (w.getLsbD k) = w.toNat / 2 ^ k % 2 := by
  rw [BitVec.getLsbD, Nat.testBit_eq_decide_div_mod_eq]
  unfold bit
  split <;> simp_all

/-- Settles O23: the fields are disjoint, so each is read off the word's number. -/
theorem statusWordLayout : Obligations.StatusWordLayout := by
  unfold Obligations.StatusWordLayout
  intro s
  have hpipe := s.pipe.code_lt
  have hreason := s.reason.code_lt
  have hfill := s.lastFill.code_lt
  have h0 := bit_lt_two s.nf0
  have h1 := bit_lt_two s.nf1
  have h2 := bit_lt_two s.dmaRun
  have h3 := bit_lt_two s.ampEn
  have h4 := bit_lt_two s.outMute
  have h5 := bit_lt_two s.storeValid
  have h6 := bit_lt_two s.cmdErr
  have h7 := bit_lt_two s.late
  have h8 := bit_lt_two s.irq
  have hword : s.statusWord.toNat =
      s.pipe.code + bit s.nf0 * 2 ^ 2 + bit s.nf1 * 2 ^ 3 + bit s.dmaRun * 2 ^ 4 + bit s.ampEn * 2 ^ 5 +
        bit s.outMute * 2 ^ 6 + bit s.storeValid * 2 ^ 7 + s.reason.code * 2 ^ 8 + bit s.cmdErr * 2 ^ 10 +
        bit s.late * 2 ^ 11 + s.lastFill.code * 2 ^ 12 + bit s.irq * 2 ^ 14 := by
    unfold State.statusWord
    rw [BitVec.toNat_ofNat]
    exact Nat.mod_eq_of_lt (by omega)
  refine ⟨?_, getLsbD_of_div_mod ?_, getLsbD_of_div_mod ?_, getLsbD_of_div_mod ?_, getLsbD_of_div_mod ?_,
    getLsbD_of_div_mod ?_, getLsbD_of_div_mod ?_, ?_, getLsbD_of_div_mod ?_, getLsbD_of_div_mod ?_, ?_,
    getLsbD_of_div_mod ?_, ?_⟩
  case refine_1 =>
    have : s.statusWord.toNat % 2 ^ 2 = s.pipe.code := by omega
    rw [this]
    cases s.pipe <;> rfl
  case refine_8 =>
    have : s.statusWord.toNat / 2 ^ 8 % 2 ^ 2 = s.reason.code := by omega
    rw [this]
    cases s.reason <;> rfl
  case refine_11 =>
    have : s.statusWord.toNat / 2 ^ 12 % 2 ^ 2 = s.lastFill.code := by omega
    rw [this]
    cases s.lastFill <;> rfl
  all_goals omega

/-! ## `CTRL` -/

theorem ctrlWord_toNat (s : State) : s.ctrlWord.toNat =
    bit s.swapLr + s.pwrTier.val * 2 + bit s.hostMute * 2 ^ 3 + bit s.localMute * 2 ^ 4 + bit s.irqEn * 2 ^ 5 := by
  have h0 := bit_lt_two s.swapLr
  have h1 := bit_lt_two s.hostMute
  have h2 := bit_lt_two s.localMute
  have h3 := bit_lt_two s.irqEn
  have h4 := s.pwrTier.isLt
  unfold State.ctrlWord
  rw [BitVec.toNat_ofNat]
  exact Nat.mod_eq_of_lt (by omega)

/-- The fields of `CTRL` at their bits (10_state.md R34). -/
theorem ctrlWord_fields (s : State) :
    s.ctrlWord.getLsbD 0 = s.swapLr ∧ s.ctrlWord.toNat / 2 % 4 = s.pwrTier.val ∧
      s.ctrlWord.getLsbD 3 = s.hostMute ∧ s.ctrlWord.getLsbD 4 = s.localMute ∧ s.ctrlWord.getLsbD 5 = s.irqEn ∧
      s.ctrlWord.toNat < 2 ^ 6 := by
  have h0 := bit_lt_two s.swapLr
  have h1 := bit_lt_two s.hostMute
  have h2 := bit_lt_two s.localMute
  have h3 := bit_lt_two s.irqEn
  have h4 := s.pwrTier.isLt
  have hword := ctrlWord_toNat s
  refine ⟨getLsbD_of_div_mod ?_, ?_, getLsbD_of_div_mod ?_, getLsbD_of_div_mod ?_, getLsbD_of_div_mod ?_, ?_⟩
  all_goals omega

theorem legalTier_val {t : Nat} (h : t < 4) : (legalTier t).val = if t = 3 then 0 else t := by
  interval_cases t <;> rfl

theorem tierField_toNat (w : Word) : (w.extractLsb' 1 2).toNat = w.toNat / 2 % 4 := by
  rw [BitVec.extractLsb'_toNat, Nat.shiftRight_eq_div_pow]

/-- The mask of the `CTRL` fields but the tier. -/
theorem land_flags_mask (n : Nat) : n &&& 0x39 = n % 2 + 8 * (n / 8 % 8) := by
  have hlow : ∀ m < 64, m &&& 0x39 = m % 2 + 8 * (m / 8 % 8) := by decide
  have hmask : n &&& 0x39 = n % 64 &&& 0x39 := by
    rw [← Nat.and_two_pow_sub_one_eq_mod n 6, Nat.and_assoc]
    rfl
  rw [hmask, hlow _ (Nat.mod_lt _ (by decide))]
  omega

/-- What `CTRL` reads after a write of w: its fields, with tier 3 read as 0 (10_state.md R35). -/
theorem ctrlWord_writeCtrl (s : State) (w : Word) :
    (s.writeCtrl w).ctrlWord = if w.toNat / 2 % 4 = 3 then w &&& 0x39 else w &&& 0x3F := by
  have hread := ctrlWord_toNat (s.writeCtrl w)
  simp only [State.writeCtrl, bit_getLsbD, tierField_toNat, legalTier_val (Nat.mod_lt _ (by decide : 0 < 4))] at hread
  apply BitVec.eq_of_toNat_eq
  refine hread.trans ?_
  split
  · rw [BitVec.toNat_and, show (0x39 : Word).toNat = 0x39 from rfl, land_flags_mask]
    omega
  · rw [BitVec.toNat_and, show (0x3F : Word).toNat = 2 ^ 6 - 1 from rfl, Nat.and_two_pow_sub_one_eq_mod]
    omega

/-- Settles O24: the write by evaluation, the stored tier and what `CTRL` reads back by the fields' numbers. -/
theorem controlWriteLegalised : Obligations.ControlWriteLegalised := by
  unfold Obligations.ControlWriteLegalised
  intro s w
  refine ⟨legalTier (w.extractLsb' 1 2).toNat, rfl, ?_, congrArg Reply.data (ctrlWord_writeCtrl s w)⟩
  rw [tierField_toNat, legalTier_val (Nat.mod_lt _ (by decide))]

/-! ## `HOST_VOL` and `LOCAL_ATT` -/

/-- `sext_16(w[15:0])` as arithmetic (10_state.md R39). -/
theorem volumeField_toInt (w : Word) : (w.extractLsb' 0 16).toInt =
    if w.toNat % 2 ^ 16 < 2 ^ 15 then (w.toNat % 2 ^ 16 : Int) else w.toNat % 2 ^ 16 - 2 ^ 16 := by
  rw [BitVec.toInt_eq_toNat_cond, BitVec.extractLsb'_toNat, Nat.shiftRight_zero]
  split <;> split <;> omega

theorem toInt_ofInt_of_range {v : Int} (hlo : -32768 ≤ v) (hhi : v ≤ 32767) : (BitVec.ofInt 32 v).toInt = v := by
  rw [BitVec.toInt_ofInt]
  exact Int.bmod_eq_of_le (by omega) (by omega)

/-- Settles O25: the clamps as case distinctions. -/
theorem volumeWritesClamped : Obligations.VolumeWritesClamped := by
  unfold Obligations.VolumeWritesClamped
  intro s w hp
  obtain ⟨-, -, -, ⟨hmin, hmin0⟩, ⟨hmax0, hmax⟩, -⟩ := hp
  refine ⟨⟨legalVolume s.params w, rfl, ?_, _, rfl, ?_⟩, min (w.extractLsb' 0 8).toNat 100, rfl, ?_, _, rfl, ?_⟩
  · rw [← volumeField_toInt]
    unfold legalVolume
    simp only
    split <;> [skip; split] <;> omega
  · obtain ⟨hlo, hhi⟩ := legalVolume_range (hmin0.trans hmax0) w
    exact toInt_ofInt_of_range (hmin.trans hlo) (hhi.trans hmax)
  · rw [BitVec.extractLsb'_toNat, Nat.shiftRight_zero]
    split <;> omega
  · exact (BitVec.toNat_ofNat _ _).trans (Nat.mod_eq_of_lt ((Nat.min_le_right _ _).trans_lt (by decide)))

/-! ## Reads, and writes that are ignored -/

theorem readReply_register (s : State) (r : Reg) :
    s.readReply (BitVec.ofNat 15 (4 * r.place)) .word = .data (s.readReg r) := by
  unfold State.readReply
  rw [target_place]

theorem hostAccess_read_register (s : State) (r : Reg) :
    hostAccess (.read (BitVec.ofNat 15 (4 * r.place)) .word) s = .next { s with reply := .data (s.readReg r) } :=
  congrArg (fun reply => Host.Outcome.next (s.replied reply)) (readReply_register s r)

theorem hostAccess_write_register (s : State) (r : Reg) (w : Word) :
    hostAccess (.write (BitVec.ofNat 15 (4 * r.place)) .word w) s = writeReg r w (s.replied .ack) := by
  unfold hostAccess hostWrite
  simp only
  rw [target_place]

/-- `SRC_AVAIL` is the number of bytes in the FIFO, below 2^32 (10_state.md R46; log 17). -/
theorem srcAvail_toNat {s : State} (h : s.fifo.length < 2 ^ 32) : s.srcAvail.toNat = s.fifo.length := by
  unfold State.srcAvail State.avail
  rw [if_pos h, BitVec.toNat_ofNat, Nat.mod_eq_of_lt h]

/-- The registers from word 5 on are read-only (10_state.md R33). -/
theorem readOnly_at {k : Nat} (hlo : 5 ≤ k) (hhi : k ≤ 14) :
    ∃ r : Reg, r.place = k ∧ ∀ (w : Word) (s : State), writeReg r w s = .next s := by
  interval_cases k
  exacts [⟨.volScale, rfl, fun _ _ => rfl⟩, ⟨.active, rfl, fun _ _ => rfl⟩, ⟨.crcResult, rfl, fun _ _ => rfl⟩,
    ⟨.fullCnt, rfl, fun _ _ => rfl⟩, ⟨.partCnt, rfl, fun _ _ => rfl⟩, ⟨.holdCnt, rfl, fun _ _ => rfl⟩,
    ⟨.heldL, rfl, fun _ _ => rfl⟩, ⟨.heldR, rfl, fun _ _ => rfl⟩, ⟨.srcAvail, rfl, fun _ _ => rfl⟩,
    ⟨.dmaPos, rfl, fun _ _ => rfl⟩]

/-- Settles O26: each register is reached at its place, and those from word 5 on ignore writes. -/
theorem registerReadsAndReadOnlyWrites : Obligations.RegisterReadsAndReadOnlyWrites := by
  unfold Obligations.RegisterReadsAndReadOnlyWrites
  intro s
  refine ⟨fun k d hkd => ?_, ⟨_, hostAccess_read_register s .srcAvail, srcAvail_toNat⟩,
    ⟨_, hostAccess_read_register s .ctrl, ctrlWord_fields s⟩, fun w k hlo hhi => ?_⟩
  · simp only [List.mem_cons, Prod.mk.injEq, List.not_mem_nil, or_false] at hkd
    rcases hkd with ⟨rfl, rfl⟩ | ⟨rfl, rfl⟩ | ⟨rfl, rfl⟩ | ⟨rfl, rfl⟩ | ⟨rfl, rfl⟩ | ⟨rfl, rfl⟩ | ⟨rfl, rfl⟩ |
      ⟨rfl, rfl⟩ | ⟨rfl, rfl⟩ | ⟨rfl, rfl⟩ | ⟨rfl, rfl⟩ | ⟨rfl, rfl⟩ | ⟨rfl, rfl⟩
    exacts [hostAccess_read_register s .cmd, hostAccess_read_register s .status, hostAccess_read_register s .hostVol,
      hostAccess_read_register s .localAtt, hostAccess_read_register s .volScale, hostAccess_read_register s .active,
      hostAccess_read_register s .crcResult, hostAccess_read_register s .fullCnt,
      hostAccess_read_register s .partCnt, hostAccess_read_register s .holdCnt, hostAccess_read_register s .heldL,
      hostAccess_read_register s .heldR, hostAccess_read_register s .dmaPos]
  · obtain ⟨r, rfl, hro⟩ := readOnly_at hlo hhi
    rw [hostAccess_write_register, hro]
    rfl

/-! ## After reset -/

/-- The reset state of a block with parameters `p` and store `m`, with inputs to come and counters of free values as
given: what `State.reset` and every reset step have in common (70_reset_and_hazards.md R340). -/
def resetState (p : Config.Params) (m : Memory) (inputs : List Input) (drawn frames : Nat) : State :=
  { State.resetWith p m with inputs := inputs, drawn := drawn, cascadeFrames := frames }

theorem reset_eq_resetState : State.reset = resetState Config.params powerOnStore [] 0 0 := rfl

theorem hardReset_eq_resetState (s : State) :
    hardReset s = resetState s.params s.store s.inputs s.drawn s.cascadeFrames := rfl

theorem step_reset {s : State} (h : s.next .reset) : step s = .next (hardReset (nextInput s).2) := by
  unfold step
  rw [h]
  rfl

theorem toBits_zero (sign : Bool) (frac : Nat) : F32.toBits sign frac F32.zero = 0 := rfl

/-- Every word of a zeroed `BQS` window is +0.0 (10_state.md R51). -/
theorem bqsValue_zeroBqs (w : Nat) : bqsValue zeroBqs w = F32.zero := by
  have hslot : zeroBqs.toList.getD (w / 2) ⟨F32.zero, F32.zero⟩ = ⟨F32.zero, F32.zero⟩ := by
    rcases Nat.lt_or_ge (w / 2) 20 with hk | hk
    · exact List.getD_replicate _ hk
    · exact List.getD_eq_default _ _ hk
  unfold bqsValue
  rw [hslot]
  split <;> rfl

section

variable {p : Config.Params} {m : Memory} {inputs : List Input} {drawn frames : Nat}

theorem resetState_params : (resetState p m inputs drawn frames).params = p := rfl

theorem resetState_buf : (resetState p m inputs drawn frames).buf = List.replicate (4 * p.halfFrames) 0 := rfl

theorem resetState_work : (resetState p m inputs drawn frames).work = List.replicate (2 * p.halfFrames) 0 := rfl

theorem resetState_bqs : (resetState p m inputs drawn frames).bqs = zeroBqs := rfl

theorem irq_resetState : (resetState p m inputs drawn frames).irq = false := rfl

/-- `DMA_RUN` is the one bit set (10_state.md R33). -/
theorem statusWord_resetState : (resetState p m inputs drawn frames).statusWord = 0x10 := by
  unfold State.statusWord
  rw [irq_resetState]
  simp [resetState, State.resetWith, bit, PipeState.code, Reason.code, FillKind.code]

/-- The registers that read 0 after reset (10_state.md R33). -/
theorem readReply_resetState_zero {k : Nat} (hk : k = 2 ∨ k = 3 ∨ k = 4 ∨ k = 5 ∨ (7 ≤ k ∧ k ≤ 14)) :
    (resetState p m inputs drawn frames).readReply (BitVec.ofNat 15 (4 * k)) .word = .data 0 := by
  rcases hk with rfl | rfl | rfl | rfl | ⟨hlo, hhi⟩
  · exact readReply_register _ .ctrl
  · exact readReply_register _ .hostVol
  · exact readReply_register _ .localAtt
  · exact readReply_register _ .volScale
  · interval_cases k
    exacts [readReply_register _ .crcResult, readReply_register _ .fullCnt, readReply_register _ .partCnt,
      readReply_register _ .holdCnt, readReply_register _ .heldL, readReply_register _ .heldR,
      readReply_register _ .srcAvail, readReply_register _ .dmaPos]

theorem bqsWord_resetState (w : Nat) : (resetState p m inputs drawn frames).bqsWord w = 0 := by
  unfold State.bqsWord
  rw [resetState_bqs, bqsValue_zeroBqs, toBits_zero]

end

/-- The states of O7 are reset states. -/
theorem eq_resetState {t : State} (ht : t = State.reset ∨ ∃ s : State, s.next .reset ∧ step s = .next t) :
    ∃ p m inputs drawn frames, t = resetState p m inputs drawn frames := by
  rcases ht with rfl | ⟨s, hs, ht⟩
  · exact ⟨_, _, _, _, _, reset_eq_resetState⟩
  · rw [step_reset hs] at ht
    cases ht
    exact ⟨_, _, _, _, _, hardReset_eq_resetState _⟩

/-- Settles O7: the reset step completes, and what a reset state reads does not depend on the rest. -/
theorem readsAfterReset : Obligations.ReadsAfterReset := by
  unfold Obligations.ReadsAfterReset
  refine ⟨fun s hs => ⟨_, step_reset hs, ?_, ?_⟩, wf_powerOnStore, fun t ht => ?_⟩
  · obtain ⟨inputs, drawn, e⟩ := nextInput_state s
    rw [hardReset_store, e]
  · obtain ⟨inputs, drawn, e⟩ := nextInput_state s
    rw [hardReset_params, e]
  · obtain ⟨p, m, inputs, drawn, frames, rfl⟩ := eq_resetState ht
    rw [resetState_params, resetState_buf, resetState_work]
    have hstatus := (readReply_register (resetState p m inputs drawn frames) .status).trans
      (congrArg Reply.data statusWord_resetState)
    exact ⟨⟨readReply_register _ .cmd, hstatus, readReply_register _ .active⟩,
      fun k hk => readReply_resetState_zero hk, fun w hw => List.getD_replicate _ hw,
      fun w hw => List.getD_replicate _ hw, fun w _ => bqsWord_resetState w, rfl, rfl, irq_resetState, rfl, rfl⟩

end Sys2Proof.Machine
end

section
/-! PROOFS. The memory map of the host bus: what each range of offsets reaches, what a read and a write of each target
do, and the windows (20_memory.md R81 to R98; O17, O19 to O22). -/

namespace Sys2Proof.Machine

open Sys2Proof

/-! ## What an access does, by its target -/

section

variable {s : State} {addr : Offset} {size : AccessSize}

/-- An access that raises `BusFault` has no effect (60_exceptions.md R311). -/
theorem hostAccess_fault (h : target s.params.halfFrames addr size = .fault) :
    hostAccess (.read addr size) s = .next { s with reply := .busFault addr } ∧
      ∀ v, hostAccess (.write addr size v) s = .next { s with reply := .busFault addr } := by
  simp only [hostAccess, State.readReply, hostWrite, h, State.replied, implies_true, and_self]

theorem hostAccess_nothing (h : target s.params.halfFrames addr size = .nothing) :
    hostAccess (.read addr size) s = .next { s with reply := .data 0 } ∧
      ∀ v, hostAccess (.write addr size v) s = .next { s with reply := .ack } := by
  simp only [hostAccess, State.readReply, hostWrite, h, State.replied, implies_true, and_self]

theorem hostAccess_store {i : Nat} (h : target s.params.halfFrames addr size = .store i) :
    hostAccess (.read addr size) s = .next { s with reply := .data (readStore s.store i size) } ∧
      ∀ v, hostAccess (.write addr size v) s =
        .next { s with store := writeStore s.store i v size, reply := .ack } := by
  simp only [hostAccess, State.readReply, hostWrite, h, State.replied, State.withStore, implies_true, and_self]

theorem hostAccess_buf {w : Nat} (h : target s.params.halfFrames addr size = .buf w) :
    hostAccess (.read addr size) s = .next { s with reply := .data (s.buf.getD w 0) } ∧
      ∀ v, hostAccess (.write addr size v) s = .next { s with reply := .ack } := by
  simp only [hostAccess, State.readReply, hostWrite, h, State.replied, implies_true, and_self]

theorem hostAccess_work {w : Nat} (h : target s.params.halfFrames addr size = .work w) :
    hostAccess (.read addr size) s = .next { s with reply := .data (s.work.getD w 0) } ∧
      ∀ v, hostAccess (.write addr size v) s = .next { s with work := s.work.set w v, reply := .ack } := by
  simp only [hostAccess, State.readReply, hostWrite, h, State.replied, implies_true, and_self]

theorem hostAccess_bqs {w : Nat} (h : target s.params.halfFrames addr size = .bqs w) :
    hostAccess (.read addr size) s = .next { s with reply := .data (s.bqsWord w) } ∧
      ∀ v, hostAccess (.write addr size v) s = .next { s with reply := .ack } := by
  simp only [hostAccess, State.readReply, hostWrite, h, State.replied, implies_true, and_self]

end

/-! ## The address decode, by range (20_memory.md R81) -/

theorem wordOnly_word (t : Target) : wordOnly .word t = t := if_pos rfl

theorem wordOnly_narrow {size : AccessSize} (h : size ≠ .word) (t : Target) : wordOnly size t = .fault := if_neg h

theorem Reg.place_le (r : Reg) : r.place ≤ 14 := by cases r <;> decide

/-- Words 15 and up of the register map are reserved (20_memory.md R84). -/
theorem registerAt_reserved {k : Nat} (h : 15 ≤ k) : registerAt k = none := by
  cases hr : registerAt k with
  | none => rfl
  | some r =>
    have hk := place_of_registerAt hr
    have hle := r.place_le
    omega

section

variable {hf : Nat} {addr : Offset} {size : AccessSize}

theorem target_misaligned (h : addr.toNat % size.bytes ≠ 0) : target hf addr size = .fault := if_pos h

variable (hal : addr.toNat % size.bytes = 0)
include hal

/-- Register space takes 32-bit accesses only (20_memory.md R83). -/
theorem target_registers (hhi : addr.toNat < 0x1000) : ∃ t, target hf addr size = wordOnly size t :=
  ⟨_, (if_neg (not_not.2 hal)).trans (if_pos hhi)⟩

theorem target_in_store (hlo : 0x1000 ≤ addr.toNat) (hhi : addr.toNat < 0x1000 + 3816) :
    target hf addr size = .store (addr.toNat - 0x1000) := by
  simp only [target, Config.storeBytes]
  rw [if_neg (not_not.2 hal), if_neg (by omega), if_pos hhi]

theorem target_in_buf (hlo : 0x2000 ≤ addr.toNat) (hhi : addr.toNat < 0x2000 + 16 * hf) (hhf : hf ≤ 256) :
    target hf addr size = wordOnly size (.buf ((addr.toNat - 0x2000) / 4)) := by
  simp only [target, Config.storeBytes]
  rw [if_neg (not_not.2 hal), if_neg (by omega), if_neg (by omega), if_neg (by omega), if_pos (by omega)]

theorem target_in_work (hlo : 0x3000 ≤ addr.toNat) (hhi : addr.toNat < 0x3000 + 8 * hf) (hhf : hf ≤ 256) :
    target hf addr size = wordOnly size (.work ((addr.toNat - 0x3000) / 4)) := by
  simp only [target, Config.storeBytes]
  rw [if_neg (not_not.2 hal), if_neg (by omega), if_neg (by omega), if_neg (by omega), if_neg (by omega),
    if_neg (by omega), if_pos (by omega)]

theorem target_in_bqs (hlo : 0x4000 ≤ addr.toNat) (hhi : addr.toNat < 0x40A0) :
    target hf addr size = wordOnly size (.bqs ((addr.toNat - 0x4000) / 4)) := by
  simp only [target, Config.storeBytes]
  rw [if_neg (not_not.2 hal), if_neg (by omega), if_neg (by omega), if_neg (by omega), if_neg (by omega),
    if_neg (by omega), if_neg (by omega), if_neg (by omega), if_pos hhi]

theorem target_reserved (hsize : size = .word) (hlo : 0x3C ≤ addr.toNat) (hhi : addr.toNat < 0x1000) :
    target hf addr size = .nothing := by
  simp only [target]
  rw [if_neg (not_not.2 hal), if_pos hhi, registerAt_reserved (by omega), hsize, wordOnly_word]

/-- The gaps between the windows, and what lies past the last one (20_memory.md R89). -/
theorem target_unmapped (h : (0x1EE8 ≤ addr.toNat ∧ addr.toNat < 0x2000) ∨
      (0x2000 + 16 * hf ≤ addr.toNat ∧ addr.toNat < 0x3000) ∨
      (0x3000 + 8 * hf ≤ addr.toNat ∧ addr.toNat < 0x4000) ∨ 0x40A0 ≤ addr.toNat) :
    target hf addr size = .nothing := by
  simp only [target, Config.storeBytes]
  rw [if_neg (not_not.2 hal), if_neg (by omega), if_neg (by omega)]
  rcases h with ⟨_, _⟩ | ⟨_, _⟩ | ⟨_, _⟩ | _
  · rw [if_pos (by omega)]
  · rw [if_neg (by omega), if_neg (by omega), if_pos (by omega)]
  · rw [if_neg (by omega), if_neg (by omega), if_neg (by omega), if_neg (by omega), if_pos (by omega)]
  · rw [if_neg (by omega), if_neg (by omega), if_neg (by omega), if_neg (by omega), if_neg (by omega),
      if_neg (by omega)]

end

/-- A narrow access to a register, `BUF`, `WORK` or `BQS` faults, aligned or not (20_memory.md R83, R86 to R88). -/
theorem target_narrow {hf : Nat} {addr : Offset} {size : AccessSize} (hsize : size ≠ .word) (hhf : hf ≤ 256)
    (h : addr.toNat < 0x1000 ∨ (0x2000 ≤ addr.toNat ∧ addr.toNat < 0x2000 + 16 * hf) ∨
      (0x3000 ≤ addr.toNat ∧ addr.toNat < 0x3000 + 8 * hf) ∨ (0x4000 ≤ addr.toNat ∧ addr.toNat < 0x40A0)) :
    target hf addr size = .fault := by
  by_cases hal : addr.toNat % size.bytes = 0
  · have hword : ∃ t, target hf addr size = wordOnly size t := by
      rcases h with hhi | ⟨hlo, hhi⟩ | ⟨hlo, hhi⟩ | ⟨hlo, hhi⟩
      · exact target_registers hal hhi
      · exact ⟨_, target_in_buf hal hlo hhi hhf⟩
      · exact ⟨_, target_in_work hal hlo hhi hhf⟩
      · exact ⟨_, target_in_bqs hal hlo hhi⟩
    obtain ⟨t, ht⟩ := hword
    exact ht.trans (wordOnly_narrow hsize t)
  · exact target_misaligned hal

/-- Settles O19: such an offset reaches nothing when aligned, and faults otherwise. -/
theorem reservedAndUnmappedOffsets : Obligations.ReservedAndUnmappedOffsets := by
  unfold Obligations.ReservedAndUnmappedOffsets
  intro s addr size _ a h
  refine ⟨fun hal => hostAccess_nothing ?_, fun hmis => hostAccess_fault (target_misaligned hmis)⟩
  rcases h with ⟨hlo, hhi, hsize⟩ | h
  · exact target_reserved hal hsize hlo hhi
  · exact target_unmapped hal h

/-- Settles O17: the reply depends on neither the inputs to come nor the earlier reply. -/
theorem readsHaveNoSideEffect : Obligations.ReadsHaveNoSideEffect := by
  unfold Obligations.ReadsHaveNoSideEffect
  intro s addr size
  refine ⟨s.readReply addr size, fun r0 rest => ?_⟩
  rw [step_of_inputs rfl]
  rfl

/-! ## The `STORE` window (20_memory.md R82, R85) -/

/-- Byte k of a single byte: the byte itself, and zeros past it. -/
theorem extractByte_byte (b : Byte) (k : Nat) : b.extractLsb' (8 * k) 8 = if k = 0 then b else 0 := by
  split
  · subst k
    exact BitVec.extractLsb'_eq_self
  · refine BitVec.eq_of_toNat_eq ?_
    have hb : b.toNat >>> (8 * k) = 0 :=
      Nat.shiftRight_eq_zero _ _ (b.isLt.trans_le (Nat.pow_le_pow_right (by decide) (by omega)))
    rw [BitVec.extractLsb'_toNat, hb]
    rfl

/-- Byte k of a word with a byte appended below: that byte, then the bytes above it. -/
theorem extractByte_append {n : Nat} (hi : BitVec n) (b : Byte) (k : Nat) :
    (hi ++ b).extractLsb' (8 * k) 8 = if k = 0 then b else hi.extractLsb' (8 * (k - 1)) 8 := by
  split
  · subst k
    exact BitVec.extractLsb'_append_eq_right
  · rw [BitVec.extractLsb'_append_eq_of_le (by omega), Nat.mul_sub]

/-- The bytes a read returns, zero-extended. -/
theorem extractByte_readStore (m : Memory) (i : Nat) (size : AccessSize) {k : Nat} (hk : k < 4) :
    (readStore m i size).extractLsb' (8 * k) 8 = if k < size.bytes then m.rd8 (i + k) else 0 := by
  cases size with
  | byte =>
    rw [readStore, BitVec.zeroExtend_eq_setWidth, BitVec.extractLsb'_setWidth_of_le (by omega), extractByte_byte]
    interval_cases k <;> rfl
  | half =>
    rw [readStore, BitVec.zeroExtend_eq_setWidth, BitVec.extractLsb'_setWidth_of_le (by omega), Memory.rd16,
      extractByte_append, extractByte_byte]
    interval_cases k <;> rfl
  | word =>
    rw [readStore, Memory.rd32, extractByte_append, extractByte_append, extractByte_append, extractByte_byte]
    interval_cases k <;> rfl

/-- The bytes of the low half of a word are its low bytes. -/
theorem extractByte_half (v : Word) {k : Nat} (hk : k < 2) :
    (v.extractLsb' 0 16).extractLsb' (8 * k) 8 = v.extractLsb' (8 * k) 8 := by
  refine BitVec.eq_of_getLsbD_eq fun j hj => ?_
  simp only [BitVec.getLsbD_extractLsb', hj, show 8 * k + j < 16 by omega, decide_true, Bool.true_and, Nat.zero_add]

/-- A write stores the low bytes of its word and leaves every other byte. -/
theorem rd8_writeStore {m : Memory} (hm : m.wf) {i : Nat} {size : AccessSize} (hi : i + size.bytes ≤ 3816) (v : Word)
    (j : Nat) : (writeStore m i v size).rd8 j =
      if i ≤ j ∧ j < i + size.bytes then v.extractLsb' (8 * (j - i)) 8 else m.rd8 j := by
  split
  · rename_i hj
    obtain ⟨k, rfl⟩ := Nat.exists_eq_add_of_le hj.1
    rw [Nat.add_sub_cancel_left]
    cases size with
    | byte =>
      obtain rfl : k = 0 := Nat.lt_one_iff.1 (Nat.lt_of_add_lt_add_left hj.2)
      exact (Memory.rd8_wr8 hm hi _ _).trans (if_pos rfl)
    | half =>
      have hk : k < 2 := Nat.lt_of_add_lt_add_left hj.2
      rw [writeStore, Memory.rd8_wr16 hm hi, ← extractByte_half v hk]
      interval_cases k <;> simp
    | word =>
      have hk : k < 4 := Nat.lt_of_add_lt_add_left hj.2
      rw [writeStore, Memory.rd8_wr32 hm hi]
      interval_cases k <;> simp
  · rename_i hj
    cases size with
    | byte =>
      replace hj : ¬ (i ≤ j ∧ j < i + 1) := hj
      exact (Memory.rd8_wr8 hm hi _ _).trans (if_neg (by omega))
    | half =>
      replace hj : ¬ (i ≤ j ∧ j < i + 2) := hj
      rw [writeStore, Memory.rd8_wr16 hm hi, if_neg (by omega), if_neg (by omega)]
    | word =>
      replace hj : ¬ (i ≤ j ∧ j < i + 4) := hj
      rw [writeStore, Memory.rd8_wr32 hm hi, if_neg (by omega), if_neg (by omega), if_neg (by omega),
        if_neg (by omega)]

/-- Settles O20: an aligned access that starts in the window also ends there, as 3816 is a multiple of 4. -/
theorem storeWindowAccess : Obligations.StoreWindowAccess := by
  unfold Obligations.StoreWindowAccess
  intro s addr size v hwf a i hlo hhi
  refine ⟨fun hal => ?_, fun hmis => ?_⟩
  · obtain ⟨hread, hwrite⟩ := hostAccess_store (s := s) (target_in_store hal hlo hhi)
    have hfits : i + size.bytes ≤ 3816 := by
      cases size <;> simp only [AccessSize.bytes] at hal ⊢ <;> omega
    exact ⟨⟨_, hread, fun k hk => extractByte_readStore s.store i size hk⟩,
      _, hwrite v, fun j => rd8_writeStore hwf hfits v j⟩
  · obtain ⟨hread, hwrite⟩ := hostAccess_fault (s := s) (target_misaligned hmis)
    exact ⟨hread, hwrite v⟩

/-! ## The `BUF`, `WORK` and `BQS` windows (20_memory.md R86 to R88, R95 to R97) -/

/-- Offsets of the bus are 15 bits: word w of a window at `base` has the offset as written. -/
theorem windowOffset_toNat {base w : Nat} (h : base + 4 * w < 2 ^ 15) :
    (BitVec.ofNat 15 (base + 4 * w)).toNat = base + 4 * w :=
  (BitVec.toNat_ofNat _ _).trans (Nat.mod_eq_of_lt h)

theorem windowOffset_aligned {base w : Nat} (h : base + 4 * w < 2 ^ 15) (hbase : base % 4 = 0) :
    (BitVec.ofNat 15 (base + 4 * w)).toNat % AccessSize.word.bytes = 0 := by
  rw [windowOffset_toNat h, Nat.add_mul_mod_self_left, hbase]

theorem windowOffset_index {base w : Nat} (h : base + 4 * w < 2 ^ 15) :
    ((BitVec.ofNat 15 (base + 4 * w)).toNat - base) / 4 = w := by
  rw [windowOffset_toNat h, Nat.add_sub_cancel_left, Nat.mul_div_cancel_left _ (by decide)]

theorem target_buf_word {hf w : Nat} (hhf : hf ≤ 256) (hw : w < 4 * hf) :
    target hf (BitVec.ofNat 15 (0x2000 + 4 * w)) .word = .buf w := by
  have hlt : 0x2000 + 4 * w < 2 ^ 15 := by omega
  have ha := windowOffset_toNat hlt
  rw [target_in_buf (windowOffset_aligned hlt rfl) (by omega) (by omega) hhf, wordOnly_word, windowOffset_index hlt]

theorem target_work_word {hf w : Nat} (hhf : hf ≤ 256) (hw : w < 2 * hf) :
    target hf (BitVec.ofNat 15 (0x3000 + 4 * w)) .word = .work w := by
  have hlt : 0x3000 + 4 * w < 2 ^ 15 := by omega
  have ha := windowOffset_toNat hlt
  rw [target_in_work (windowOffset_aligned hlt rfl) (by omega) (by omega) hhf, wordOnly_word, windowOffset_index hlt]

theorem target_bqs_word {hf w : Nat} (hw : w < 40) :
    target hf (BitVec.ofNat 15 (0x4000 + 4 * w)) .word = .bqs w := by
  have hlt : 0x4000 + 4 * w < 2 ^ 15 := by omega
  have ha := windowOffset_toNat hlt
  rw [target_in_bqs (windowOffset_aligned hlt rfl) (by omega) (by omega), wordOnly_word, windowOffset_index hlt]

theorem getD_set_of_lt (l : List Word) (w : Nat) (v : Word) {j : Nat} (hj : j < l.length) :
    (l.set w v).getD j 0 = if j = w then v else l.getD j 0 := by
  rw [List.getD_eq_getElem _ _ (by simpa using hj), List.getD_eq_getElem _ _ hj, List.getElem_set]
  simp only [eq_comm]

/-- The windows do not overlap: `HALF_FRAMES` is at most 256 (00_scope.md R8). -/
theorem State.Inv.halfFrames_le {s : State} (h : s.Inv) : s.params.halfFrames ≤ 256 := h.params.1.2

/-- Settles O21: word w of a window is reached at its offset, and a narrow access faults. -/
theorem bufAndWorkWindows : Obligations.BufAndWorkWindows := by
  unfold Obligations.BufAndWorkWindows
  intro s w v hinv
  have hhf := hinv.halfFrames_le
  refine ⟨fun hw => ?_, fun hw => ?_, fun addr size hsize hrange => ?_⟩
  · obtain ⟨hread, hwrite⟩ := hostAccess_buf (target_buf_word hhf hw)
    exact ⟨hread, hwrite v⟩
  · obtain ⟨hread, hwrite⟩ := hostAccess_work (target_work_word hhf hw)
    refine ⟨hread, _, hwrite v, List.length_set, fun j hj => getD_set_of_lt s.work w v ?_⟩
    rwa [List.length_set] at hj
  · obtain ⟨hread, hwrite⟩ := hostAccess_fault (target_narrow hsize hhf (.inr (hrange.imp_right .inl)))
    exact ⟨hread, hwrite v⟩

/-- Word 4f + 2c + k of the window shows accumulator k of `BQS[f][c]` (20_memory.md R97). -/
theorem bqsValue_slot (b : Vector Delay 20) (f : Fin 10) (c k : Fin 2) :
    bqsValue b (4 * f.val + 2 * c.val + k.val) = if k = 0 then (getDelay b f c).s1 else (getDelay b f c).s2 := by
  have hslot : (4 * f.val + 2 * c.val + k.val) / 2 = (bqsIndex f c).val := by simp only [bqsIndex]; omega
  have hdelay : b.toList.getD (bqsIndex f c).val ⟨F32.zero, F32.zero⟩ = getDelay b f c :=
    (List.getD_eq_getElem _ _ (by simp)).trans (Vector.getElem_toList _)
  unfold bqsValue
  rw [hslot, hdelay]
  have hparity : (4 * f.val + 2 * c.val + k.val) % 2 = 0 ↔ k = 0 := by omega
  simp only [hparity]

/-- A shown word reads as its accumulator, a NaN as some NaN pattern (20_memory.md R97; log 6). -/
theorem bqsWord_shows {s : State} {w : Nat} {x : F32} (hx : bqsValue s.bqs w = x) (hc : x.canonical = true) :
    F32.ofBits (s.bqsWord w) = x ∧
      (x = .nan → (s.bqsWord w).toNat / 2 ^ 23 % 2 ^ 8 = 255 ∧ (s.bqsWord w).toNat % 2 ^ 23 ≠ 0) := by
  have hfrac : (Config.nanPattern s.cascadeFrames w).2.val + 1 < 2 ^ 23 :=
    Nat.succ_lt_succ (Config.nanPattern s.cascadeFrames w).2.isLt
  unfold State.bqsWord
  rw [hx]
  refine ⟨F32.ofBits_toBits _ (Nat.le_add_left _ _) hfrac hc, ?_⟩
  rintro rfl
  obtain ⟨-, hef, hfr⟩ := F32.pattern_fields (Config.nanPattern s.cascadeFrames w).1 (ef := 255) (by decide) hfrac
  exact ⟨hef, hfr.trans_ne (Nat.succ_ne_zero _)⟩

/-- Settles O22: the invariant makes each accumulator a binary32 value, so its pattern reads back as it. -/
theorem bqsWindowShowsState : Obligations.BqsWindowShowsState := by
  unfold Obligations.BqsWindowShowsState
  refine ⟨fun s f c k hinv => ?_, fun s addr size v hinv hsize hlo hhi => ?_⟩
  · have haddr : 0x4000 + 16 * f.val + 8 * c.val + 4 * k.val = 0x4000 + 4 * (4 * f.val + 2 * c.val + k.val) := by
      omega
    have hw : 4 * f.val + 2 * c.val + k.val < 40 := by omega
    obtain ⟨hread, hwrite⟩ := hostAccess_bqs (s := s) (target_bqs_word hw)
    obtain ⟨hs1, hs2⟩ := hinv.bqs (bqsIndex f c)
    have hshow := bqsWord_shows (bqsValue_slot s.bqs f c k) (by split <;> assumption)
    rw [haddr]
    exact ⟨⟨_, hread, hshow⟩, hwrite⟩
  · obtain ⟨hread, hwrite⟩ :=
      hostAccess_fault (target_narrow hsize hinv.halfFrames_le (.inr (.inr (.inr ⟨hlo, hhi⟩))))
    exact ⟨hread, hwrite v⟩

end Sys2Proof.Machine
end

section
/-! PROOFS. The command encoding (30_encoding.md R110 to R121): what the decoder reads in an encoded word, the two
directions of the agreement, and the reserved opcodes (O1 to O3). -/

namespace Sys2Proof.Machine

open Sys2Proof

/-! ## The fields of an encoded word -/

section

variable (op id : BitVec 8) (nfr start len : BitVec 12) (vs : BitVec 9)

theorem opField_encodeN : opField (encodeN op) = op := BitVec.extractLsb'_append_eq_right
theorem opField_encodeI : opField (encodeI op id) = op := BitVec.extractLsb'_append_eq_right
theorem opField_encodeP : opField (encodeP op nfr vs) = op := BitVec.extractLsb'_append_eq_right
theorem opField_encodeR : opField (encodeR op start len) = op := BitVec.extractLsb'_append_eq_right

theorem idField_encodeI : idField (encodeI op id) = id :=
  (BitVec.extractLsb'_append_eq_of_le (Nat.le_refl 8)).trans BitVec.extractLsb'_append_eq_right

theorem nfrField_encodeP : nfrField (encodeP op nfr vs) = nfr :=
  (BitVec.extractLsb'_append_eq_of_le (Nat.le_refl 8)).trans BitVec.extractLsb'_append_eq_right

theorem vsField_encodeP : vsField (encodeP op nfr vs) = vs := by
  unfold vsField encodeP
  rw [BitVec.extractLsb'_append_eq_of_le (by decide), BitVec.extractLsb'_append_eq_of_le (by decide)]
  exact BitVec.extractLsb'_append_eq_right

theorem startField_encodeR : startField (encodeR op start len) = start :=
  (BitVec.extractLsb'_append_eq_of_le (Nat.le_refl 8)).trans BitVec.extractLsb'_append_eq_right

theorem lenField_encodeR : lenField (encodeR op start len) = len :=
  (BitVec.extractLsb'_append_eq_of_le (by decide)).trans BitVec.extractLsb'_append_eq_left

/-! ## Each format reads back its operands -/

theorem formatN_encodeN (i : Instr) : formatN (encodeN op) i = .ok i :=
  if_pos BitVec.extractLsb'_append_eq_left

theorem formatI_encodeI (i : BitVec 8 → Instr) : formatI (encodeI op id) i = .ok (i id) := by
  have hrsv : (encodeI op id).extractLsb' 16 16 = 0 :=
    (BitVec.extractLsb'_append_eq_of_le (by decide)).trans BitVec.extractLsb'_append_eq_left
  rw [formatI, if_pos hrsv, idField_encodeI]

theorem formatP_encodeP (i : BitVec 12 → BitVec 9 → Instr) :
    formatP (encodeP op nfr vs) i = .ok (i nfr vs) := by
  have hrsv : (encodeP op nfr vs).extractLsb' 29 3 = 0 := by
    unfold encodeP
    rw [BitVec.extractLsb'_append_eq_of_le (by decide), BitVec.extractLsb'_append_eq_of_le (by decide)]
    exact BitVec.extractLsb'_append_eq_left
  rw [formatP, if_pos hrsv, nfrField_encodeP, vsField_encodeP]

theorem formatR_encodeR (i : BitVec 12 → BitVec 12 → Instr) :
    formatR (encodeR op start len) i = .ok (i start len) := by
  rw [formatR, startField_encodeR, lenField_encodeR]

end

/-! ## Decoding an encoding -/

/-- The opcode of the encoding selects the instruction's own row of the map, whose format reads the operands back
(30_encoding.md R117). -/
theorem decodeWord_encode (i : Instr) : decodeWord (encode i) = .ok i := by
  unfold decodeWord
  cases i with
  | bqProcess nfr vs =>
    rw [encode, opField_encodeP]
    exact formatP_encodeP 0x02 nfr vs _
  | crcRun start len =>
    rw [encode, opField_encodeR]
    exact formatR_encodeR 0x30 start len _
  | setActive id | profCommit id | profDelete id =>
    rw [encode, opField_encodeI]
    exact formatI_encodeI _ id _
  | _ =>
    rw [encode, opField_encodeN]
    exact formatN_encodeN _ _

/-- A command is the first word of the bytes; what follows it is left (30_encoding.md R110). -/
theorem decodeBytes_bytesOfWord_append {w : Word} {i : Instr} (h : decodeWord w = .ok i) (rest : List Byte) :
    decodeBytes (bytesOfWord w ++ rest) = .ok (i, rest) := by
  have hw : wordOfBytes (w.extractLsb' 0 8) (w.extractLsb' 8 8) (w.extractLsb' 16 8) (w.extractLsb' 24 8) = w :=
    word_of_bytes w
  simp only [bytesOfWord, List.cons_append, List.nil_append, decodeBytes, hw, h]

/-- Settles O1: each format reads back what it wrote, and a word's fields with its zero bits make up the word. -/
theorem decodeEncodeAgree : Obligations.DecodeEncodeAgree := by
  unfold Obligations.DecodeEncodeAgree
  exact ⟨fun i rest => ⟨decodeWord_encode i, decodeBytes_bytesOfWord_append (decodeWord_encode i) rest⟩,
    fun _ _ => encode_of_decodeWord⟩

/-! ## Words written out -/

/-- A word of the opcode table that is an instruction's encoding decodes to it. -/
theorem decodeTableWord_of_encode {n w : Nat} {i : Instr} (h : encode i = tableWord n w) :
    decodeTableWord n w = some i := by
  unfold decodeTableWord
  rw [decodeBytes_bytesOfWord, ← h, decodeWord_encode]
  rfl

/-- Settles O2: each word is the encoding of its instruction. -/
theorem referenceWordsDecode : Obligations.ReferenceWordsDecode := by
  unfold Obligations.ReferenceWordsDecode
  refine ⟨?_, ?_, ?_, ?_, ?_, ?_, ?_, ?_⟩ <;> exact decodeTableWord_of_encode (by decide)

/-! ## Reserved opcodes -/

/-- The opcode as a number (30_encoding.md R110). -/
theorem opField_toNat (w : Word) : (opField w).toNat = w.toNat % 2 ^ 8 := BitVec.extractLsb'_toNat 0 8 w

/-- Settles O3: no row of the map has such an opcode, so the word does not decode. -/
theorem reservedOpcodeRejected : Obligations.ReservedOpcodeRejected := by
  unfold Obligations.ReservedOpcodeRejected
  intro w s op hop
  have hdecode : decodeWord w = .error .reservedOpcode := by
    have hfield : (opField w).toNat = op := opField_toNat w
    unfold decodeWord
    split
    case h_15 => rfl
    all_goals omega
  exact issue_error hdecode s

end Sys2Proof.Machine
end

section
/-! PROOFS. Rejection (40_command.md R142, 60_exceptions.md R312): which commands the model rejects, that every step
completes, and that `CMDERR` has no other cause (O10, O11). -/

namespace Sys2Proof.Machine

open Sys2Proof

/-! ## The model's checks as R312 states them -/

theorem slotOperand_eq_none_iff {id : BitVec 8} : slotOperand id = none ↔ 10 ≤ id.toNat := by
  unfold slotOperand
  split
  next hlt => exact ⟨nofun, fun hge => absurd hlt (Nat.not_lt.2 hge)⟩
  next hge => exact ⟨fun _ => Nat.not_lt.1 hge, fun _ => rfl⟩

theorem slotOperand_eq_some_iff {id : BitVec 8} {p : Fin 10} : slotOperand id = some p ↔ id.toNat = p.val := by
  unfold slotOperand
  split
  next hlt => exact ⟨fun e => congrArg Fin.val (Option.some.inj e), fun e => congrArg some (Fin.ext e)⟩
  next hge => exact ⟨nofun, fun e => absurd (e ▸ p.isLt) hge⟩

theorem rejects_bqProcess (s : State) (nfr : BitVec 12) (vs : BitVec 9) :
    rejects s (.bqProcess nfr vs) = !operandsOk s (.bqProcess nfr vs) := by
  simp [rejects, operandsOk, Instr.operandsLegal, Config.volUnity, Bool.not_and, ← decide_not]

theorem rejects_crcRun (s : State) (start len : BitVec 12) :
    rejects s (.crcRun start len) = !operandsOk s (.crcRun start len) := by
  simp [rejects, operandsOk, Instr.operandsLegal, Config.storeBytes, ← decide_not]

/-- A command that needs a slot is rejected where its operand names none (R142, check 4). -/
theorem rejects_of_no_slot {id : BitVec 8} (s : State) (h : slotOperand id = none) :
    rejects s (.setActive id) = true ∧ rejects s (.profCommit id) = true ∧ rejects s (.profDelete id) = true := by
  simp [rejects, slotOperand_eq_none_iff.1 h]

/-- Where the operand names a slot, SET_ACTIVE also asks that it is not empty (R163). -/
theorem rejects_of_slot {id : BitVec 8} {p : Fin 10} (s : State) (h : slotOperand id = some p) :
    rejects s (.setActive id) = emptySlot s.store p ∧ rejects s (.profCommit id) = false ∧
      rejects s (.profDelete id) = false := by
  have hp := slotOperand_eq_some_iff.1 h
  have hlt : ¬ 10 ≤ p.val := Nat.not_le_of_lt p.isLt
  simp [rejects, emptySlot, slotBase, countByte, hp, hlt]

/-- R312's checks read the parameters and `STORE` only. -/
theorem rejects_congr {s t : State} (hp : t.params = s.params) (hm : t.store = s.store) (i : Instr) :
    rejects t i = rejects s i := by
  unfold rejects
  rw [hp, hm]

/-! ## What a command does to `CMDERR` -/

/-- R142: a command that R312 rejects sets `CMDERR` and changes nothing else; any other leaves `CMDERR` as it was. -/
inductive CommandVerdict (i : Instr) (s : State) : State → Prop
  | rejected (h : rejects s i = true) : CommandVerdict i s s.reject
  | accepted {t : State} (h : rejects s i = false) (hc : t.cmdErr = s.cmdErr) : CommandVerdict i s t

theorem CommandVerdict.of_operandsOk {i : Instr} {s t : State} (hr : rejects s i = !operandsOk s i)
    (hc : t.cmdErr = s.cmdErr) : CommandVerdict i s (if operandsOk s i then t else s.reject) := by
  split
  next hok => exact .accepted (by rw [hr, hok]; rfl) hc
  next hbad => exact .rejected (by rw [hr, Bool.eq_false_iff.2 hbad]; rfl)

theorem bqProcessWork_cmdErr (s : State) (nfr : BitVec 12) (vs : BitVec 9) :
    (bqProcessWork s nfr vs).cmdErr = s.cmdErr := by
  obtain ⟨b, k, e⟩ := bqProcess_state s (s.work.take (2 * nfr.toNat)) vs.toNat
  exact (congrArg State.cmdErr e :)

theorem taskPrebuf_cmdErr (s : State) : (taskPrebuf s).cmdErr = s.cmdErr := by
  rcases taskPrebuf_eq s with ⟨-, e⟩ | ⟨-, _, _, _, _, _, _, _, _, _, _, e⟩
  · rw [e]
  · rw [e]

theorem taskStreaming_cmdErr (s : State) : (taskStreaming s).cmdErr = s.cmdErr := by
  obtain ⟨_, _, _, _, _, _, _, _, _, _, _, _, e⟩ := taskStreaming_eq s
  rw [e]

theorem exec_verdict {i : Instr} {s t : State} (h : exec i s = .next t) : CommandVerdict i s t := by
  cases i with
  | bqProcess nfr vs => cases h; exact .of_operandsOk (rejects_bqProcess s nfr vs) (bqProcessWork_cmdErr s nfr vs)
  | crcRun start len => cases h; exact .of_operandsOk (rejects_crcRun s start len) rfl
  | setActive id =>
    cases h
    split
    next p hp =>
      obtain ⟨hr, -, -⟩ := rejects_of_slot s hp
      split
      next hempty => exact .rejected (hr.trans hempty)
      next hfull => exact .accepted (hr.trans (Bool.eq_false_iff.2 hfull)) rfl
    next hnone =>
      obtain ⟨hr, -, -⟩ := rejects_of_no_slot s hnone
      exact .rejected hr
  | profCommit id =>
    cases h
    split
    next p hp =>
      obtain ⟨-, hr, -⟩ := rejects_of_slot s hp
      exact .accepted hr rfl
    next hnone =>
      obtain ⟨-, hr, -⟩ := rejects_of_no_slot s hnone
      exact .rejected hr
  | profDelete id =>
    cases h
    split
    next p hp =>
      obtain ⟨-, -, hr⟩ := rejects_of_slot s hp
      exact .accepted hr (by simp)
    next hnone =>
      obtain ⟨-, -, hr⟩ := rejects_of_no_slot s hnone
      exact .rejected hr
  | aoTask =>
    cases h
    refine .accepted rfl ?_
    split
    · rfl
    · exact taskPrebuf_cmdErr s
    · exact taskStreaming_cmdErr s
  | _ => cases h; exact .accepted rfl rfl

/-! ## Every step completes (R144, R310) -/

theorem exec_completes (i : Instr) (s : State) : ∃ t, exec i s = .next t := by
  cases i <;> exact ⟨_, rfl⟩

theorem issue_completes (w : Word) (s : State) : ∃ t, issue w s = .next t := by
  cases hd : decodeWord w with
  | ok i =>
    rw [issue_ok hd]
    exact exec_completes i s
  | error e => exact ⟨_, issue_error hd s⟩

theorem hostWrite_completes (addr : Offset) (size : AccessSize) (v : Word) (s : State) :
    ∃ t, hostWrite addr size v s = .next t := by
  unfold hostWrite
  split
  case h_1 r _ =>
    cases r with
    | cmd => exact issue_completes v _
    | _ => exact ⟨_, rfl⟩
  all_goals exact ⟨_, rfl⟩

theorem agentStep_completes (i : Input) (s : State) : ∃ t, agentStep i s = .next t := by
  cases i with
  | host a =>
    cases a with
    | read addr size => exact ⟨_, rfl⟩
    | write addr size v => exact hostWrite_completes addr size v s
  | _ => exact ⟨_, rfl⟩

/-- Settles O10: every agent step answers, and a command's `CMDERR` is its verdict. -/
theorem everyStepCompletesAndRejectionTable : Obligations.EveryStepCompletesAndRejectionTable := by
  unfold Obligations.EveryStepCompletesAndRejectionTable
  refine ⟨fun s => agentStep_completes _ _, fun i s => ?_⟩
  obtain ⟨t, ht⟩ := exec_completes i s
  cases exec_verdict ht with
  | rejected hr => exact ⟨fun _ => ht, fun hf => absurd (hf.symm.trans hr) Bool.false_ne_true⟩
  | accepted hf hc => exact ⟨fun hr => absurd (hf.symm.trans hr) Bool.false_ne_true, fun _ => ⟨t, ht, hc⟩⟩

/-! ## The causes of `CMDERR` -/

/-- Issuing a word sets `CMDERR` by R142 only: it does not decode, or R312 rejects what it decodes to. -/
theorem issue_sets_cmdErr {w : Word} {s t : State} (h : issue w s = .next t) (h0 : s.cmdErr = false)
    (h1 : t.cmdErr = true) :
    ((∃ e, decodeWord w = .error e) ∨ ∃ i, decodeWord w = .ok i ∧ rejects s i = true) ∧ t = s.reject := by
  rcases issue_cases h with ⟨i, hi, ht⟩ | ⟨he, rfl⟩
  · cases exec_verdict ht with
    | rejected hr => exact ⟨.inr ⟨i, hi, hr⟩, rfl⟩
    | accepted _ hc => exact absurd (h0.symm.trans (hc.symm.trans h1)) Bool.false_ne_true
  · exact ⟨.inl he, rfl⟩

/-- No HOST write sets `CMDERR` but one that issues a command. -/
theorem hostWrite_sets_cmdErr {addr : Offset} {size : AccessSize} {v : Word} {s t : State}
    (h : hostWrite addr size v s = .next t) (h0 : s.cmdErr = false) (h1 : t.cmdErr = true) :
    addr = 0 ∧ size = .word ∧ issue v (s.replied .ack) = .next t := by
  rcases hostWrite_cases h with hcmd | rfl | rfl | rfl | rfl | ⟨_, _, rfl⟩ | ⟨_, _, rfl⟩ | rfl | ⟨_, rfl⟩
  · exact hcmd
  · simp [State.writeStatus, h0] at h1
  all_goals exact absurd (h0.symm.trans h1) Bool.false_ne_true

/-- Settles O11: of all agent steps only a HOST write can set `CMDERR`, and of those only a rejected command. -/
theorem cmdErrSetOnlyByRejection : Obligations.CmdErrSetOnlyByRejection := by
  unfold Obligations.CmdErrSetOnlyByRejection
  intro s t ht h0 h1
  obtain ⟨inputs, drawn, hu⟩ := nextInput_state s
  have hu0 : (nextInput s).2.cmdErr = false := by rw [hu]; exact h0
  have hkept : ¬ t.cmdErr = (nextInput s).2.cmdErr := fun hc => Bool.false_ne_true (hu0.symm.trans (hc.symm.trans h1))
  rcases step_cases ht with ⟨_, _, _, rfl⟩ | ⟨_, _, w, hw, hwrite⟩ | ⟨_, rfl⟩ | ⟨b, _, rfl⟩ | ⟨_, rfl⟩
  · exact absurd rfl hkept
  · obtain ⟨rfl, rfl, hissue⟩ := hostWrite_sets_cmdErr hwrite hu0 h1
    obtain ⟨hcause, rfl⟩ := issue_sets_cmdErr hissue hu0 h1
    have hchecks := rejects_congr (s := s) (t := (nextInput s).2.replied .ack) (by rw [hu]; rfl) (by rw [hu]; rfl)
    simp only [hchecks] at hcause
    exact ⟨w, next_of_nextAccess hw, hcause, rfl⟩
  · obtain ⟨_, _, _, _, _, e, -⟩ := dmaStep_eq (nextInput s).2
    exact absurd (congrArg State.cmdErr e :) hkept
  · obtain ⟨_, e⟩ := srcStep_eq (nextInput s).2 b
    exact absurd (congrArg State.cmdErr e :) hkept
  · cases h1

end Sys2Proof.Machine
end

section
/-! PROOFS. Format N commands (30_encoding.md R111, R119) and NOP (O27). -/

namespace Sys2Proof.Machine

open Sys2Proof

/-- The bits of a word from bit k up are 0 exactly when the word is below 2^k: the reserved bits as a number. -/
theorem extract_top_eq_zero_iff {w : Word} {k n : Nat} (h : k + n = 32) :
    w.extractLsb' k n = 0 ↔ w.toNat / 2 ^ k = 0 := by
  have hlt : w.toNat / 2 ^ k < 2 ^ n := by
    rw [Nat.div_lt_iff_lt_mul (Nat.two_pow_pos k), ← Nat.pow_add, Nat.add_comm, h]
    exact w.isLt
  rw [← BitVec.toNat_inj, BitVec.extractLsb'_toNat, Nat.shiftRight_eq_div_pow, Nat.mod_eq_of_lt hlt]
  rfl

/-- An opcode whose row of the map (R117) is format N has one command word, and is rejected with any reserved bit. -/
theorem formatNCommand {op : Nat} {i : Instr} (hop : op < 2 ^ 8)
    (hrow : ∀ w : Word, w.toNat % 2 ^ 8 = op → decodeWord w = formatN w i) : FormatNCommand op i := by
  refine ⟨?_, fun w s hw hrsv => ?_⟩
  · have hword : (BitVec.ofNat 32 op).toNat = op := Nat.mod_eq_of_lt (by omega)
    rw [hrow _ (by rw [hword, Nat.mod_eq_of_lt hop])]
    exact if_pos ((extract_top_eq_zero_iff rfl).2 (by rw [hword, Nat.div_eq_of_lt hop]))
  · have hdecode : decodeWord w = .error .reservedBits :=
      (hrow w hw).trans (if_neg fun h => hrsv ((extract_top_eq_zero_iff rfl).1 h))
    exact issue_error hdecode s

/-- Settles O27: row 0 of the map is format N, and the command's meaning is the identity (R143). -/
theorem nopChangesNothing : Obligations.NopChangesNothing := by
  unfold Obligations.NopChangesNothing
  refine ⟨formatNCommand (by decide) fun w hw => ?_, fun s => rfl⟩
  simp only [decodeWord, opField_toNat, hw]

end Sys2Proof.Machine
end

section
/-! PROOFS. Format I and format P commands (30_encoding.md R112, R113, R119), and the commands R312 rejects. -/

namespace Sys2Proof.Machine

open Sys2Proof

/-- A word of a format with bits k to 31 reserved does not decode with one of them set (R119). -/
theorem issue_reservedBits {w : Word} {k n : Nat} {r : Except DecodeError Instr} (hkn : k + n = 32)
    (hrow : decodeWord w = if w.extractLsb' k n = 0 then r else .error .reservedBits) (hrsv : w.toNat / 2 ^ k ≠ 0)
    (s : State) : issue w s = .next s.reject :=
  issue_error (hrow.trans (if_neg fun h => hrsv ((extract_top_eq_zero_iff hkn).1 h))) s

/-- A field of a word from the word as a number (R110). -/
theorem extract_eq_of_div_mod {w : Word} {k n : Nat} {v : BitVec n} (h : w.toNat / 2 ^ k % 2 ^ n = v.toNat) :
    w.extractLsb' k n = v := by
  rw [← BitVec.toNat_inj, BitVec.extractLsb'_toNat, Nat.shiftRight_eq_div_pow, h]

/-- An opcode whose row of the map (R117) is format I has one command word for each operand, and is rejected with any
reserved bit. -/
theorem formatICommand {op : Nat} {i : BitVec 8 → Instr} (hop : op < 2 ^ 8)
    (hrow : ∀ w : Word, w.toNat % 2 ^ 8 = op → decodeWord w = formatI w i) : FormatICommand op i := by
  refine ⟨fun id => ?_, fun w s hw hrsv => issue_reservedBits rfl (hrow w hw) hrsv s⟩
  have hid := id.isLt
  have hword : (BitVec.ofNat 32 (op + id.toNat * 2 ^ 8)).toNat = op + id.toNat * 2 ^ 8 :=
    (BitVec.toNat_ofNat _ _).trans (Nat.mod_eq_of_lt (by omega))
  have hfield : idField (BitVec.ofNat 32 (op + id.toNat * 2 ^ 8)) = id := extract_eq_of_div_mod (by omega)
  rw [hrow _ (by omega), formatI, if_pos ((extract_top_eq_zero_iff rfl).2 (by omega)), hfield]

/-- An opcode whose row of the map (R117) is format P has one command word for each pair of operands, and is rejected with
any reserved bit. -/
theorem formatPCommand {op : Nat} {i : BitVec 12 → BitVec 9 → Instr} (hop : op < 2 ^ 8)
    (hrow : ∀ w : Word, w.toNat % 2 ^ 8 = op → decodeWord w = formatP w i) : FormatPCommand op i := by
  refine ⟨fun nfr vs => ?_, fun w s hw hrsv => issue_reservedBits rfl (hrow w hw) hrsv s⟩
  have hnfr := nfr.isLt
  have hvs := vs.isLt
  generalize hw : BitVec.ofNat 32 (op + nfr.toNat * 2 ^ 8 + vs.toNat * 2 ^ 20) = w
  have hword : w.toNat = op + nfr.toNat * 2 ^ 8 + vs.toNat * 2 ^ 20 := by
    rw [← hw]
    exact (BitVec.toNat_ofNat _ _).trans (Nat.mod_eq_of_lt (by omega))
  have hnfrField : nfrField w = nfr := extract_eq_of_div_mod (by omega)
  have hvsField : vsField w = vs := extract_eq_of_div_mod (by omega)
  rw [hrow _ (by omega), formatP, if_pos ((extract_top_eq_zero_iff rfl).2 (by omega)), hnfrField, hvsField]

/-- A command that R312 rejects sets `CMDERR` and changes nothing else (R142). -/
theorem exec_of_rejects {i : Instr} {s : State} (h : rejects s i = true) : exec i s = .next s.reject :=
  (everyStepCompletesAndRejectionTable.2 i s).1 h

end Sys2Proof.Machine
end

section
/-! PROOFS. Profile slots (41_biquad.md R157, R163 to R169): what an empty slot is, what is recounted, and the commands
that select, commit and delete a slot (O29 to O33), with BQ_RESET (O28). -/

namespace Sys2Proof.Machine

open Sys2Proof

/-! ## Empty slots and the count of the others -/

theorem emptySlot_eq_true_iff {m : Memory} {p : Fin 10} :
    emptySlot m p = true ↔ m.rd8 (16 + 380 * p.val) = 0 ∨ m.rd8 (16 + 380 * p.val + 16) = 0 := by
  simp [emptySlot, slotBase, countByte]

theorem emptySlot_eq_false_iff {m : Memory} {p : Fin 10} :
    emptySlot m p = false ↔ m.rd8 (16 + 380 * p.val) ≠ 0 ∧ m.rd8 (16 + 380 * p.val + 16) ≠ 0 := by
  rw [← Bool.not_eq_true, emptySlot_eq_true_iff, not_or]

theorem tenth_eq_finRange : tenth = List.finRange 10 := by decide

/-- `recount()` as R167 states it. -/
theorem recount_eq (m : Memory) : recount m = (List.finRange 10).countP fun q =>
    decide (m.rd8 (16 + 380 * q.val) ≠ 0 ∧ m.rd8 (16 + 380 * q.val + 16) ≠ 0) := by
  unfold recount
  rw [tenth_eq_finRange]
  refine List.countP_congr fun q _ => ?_
  rw [Bool.not_eq_true', emptySlot_eq_false_iff, decide_eq_true_iff]

/-- The count reads no header byte, so a store that differs in byte 5 only has the same. -/
theorem recount_recounted {m : Memory} (h : m.wf) : recount m.recounted = recount m := by
  have hbyte : ∀ j, 16 ≤ j → m.recounted.rd8 j = m.rd8 j := fun j hj =>
    (Memory.rd8_wr8 h (by decide) _ j).trans (if_neg (by simp only [profileCountByte]; omega))
  rw [recount_eq, recount_eq]
  refine List.countP_congr fun q _ => ?_
  rw [hbyte _ (by omega), hbyte _ (by omega)]

/-- After `STORE[5] <- recount()` byte 5 is the number of the slots that are then non-empty (R167). -/
theorem rd8_recounted {m : Memory} (h : m.wf) (j : Nat) :
    m.recounted.rd8 j = if j = 5 then BitVec.ofNat 8 (recount m.recounted) else m.rd8 j := by
  rw [recount_recounted h]
  exact Memory.rd8_wr8 h (by decide) _ j

/-! ## PROF_COMMIT and PROF_DELETE -/

theorem ofNat_min_ten (b : Byte) : BitVec.ofNat 8 (min b.toNat 10) = if b.toNat ≤ 10 then b else 10 := by
  split
  case isTrue h => rw [Nat.min_eq_left h, BitVec.ofNat_toNat, BitVec.setWidth_eq]
  case isFalse h => rw [Nat.min_eq_right (by omega)]; rfl

/-- PROF_COMMIT writes the terminator, then the clamped count, then the recount (R165). -/
theorem commitStore_eq {m : Memory} (h : m.wf) (p : Fin 10) :
    commitStore m p = ((m.wr8 (16 + 380 * p.val + 15) 0).wr8 (16 + 380 * p.val + 16)
      (if (m.rd8 (16 + 380 * p.val + 16)).toNat ≤ 10 then m.rd8 (16 + 380 * p.val + 16) else 10)).recounted := by
  have hname : (m.wr8 (16 + 380 * p.val + 15) 0).rd8 (16 + 380 * p.val + 16) = m.rd8 (16 + 380 * p.val + 16) := by
    rw [Memory.rd8_wr8 h (by omega), if_neg (by omega)]
  rw [← ofNat_min_ten, ← hname]
  rfl

theorem rd8_commitStore {m : Memory} (h : m.wf) (p : Fin 10) (j : Nat) :
    (commitStore m p).rd8 j =
      if j = 16 + 380 * p.val + 15 then 0
      else if j = 16 + 380 * p.val + 16 then (if (m.rd8 j).toNat ≤ 10 then m.rd8 j else 10)
      else if j = 5 then BitVec.ofNat 8 (recount (commitStore m p))
      else m.rd8 j := by
  have hname := Memory.wf_wr8 h (16 + 380 * p.val + 15) 0
  rw [commitStore_eq h, rd8_recounted (Memory.wf_wr8 hname _ _), Memory.rd8_wr8 hname (by omega),
    Memory.rd8_wr8 h (by omega)]
  by_cases h5 : j = 5
  · have h15 : ¬ j = 16 + 380 * p.val + 15 := by omega
    have h16 : ¬ j = 16 + 380 * p.val + 16 := by omega
    rw [if_pos h5, if_neg h15, if_neg h16, if_pos h5]
  by_cases h16 : j = 16 + 380 * p.val + 16
  · have h15 : ¬ j = 16 + 380 * p.val + 15 := by omega
    rw [if_neg h5, if_pos h16, if_neg h15, if_pos h16, h16]
  · rw [if_neg h5, if_neg h16, if_neg h16, if_neg h5]

theorem rd8_deleteStore {m : Memory} (h : m.wf) (p : Fin 10) (j : Nat) :
    (deleteStore m p).rd8 j =
      if 16 + 380 * p.val ≤ j ∧ j < 16 + 380 * p.val + 380 then 0
      else if j = 5 then BitVec.ofNat 8 (recount (deleteStore m p))
      else m.rd8 j := by
  have hzero : ∀ j, (m.zero (slotBase p) 380).rd8 j =
      if 16 + 380 * p.val ≤ j ∧ j < 16 + 380 * p.val + 380 then 0 else m.rd8 j :=
    Memory.rd8_zero _ h _ (by simp only [slotBase]; omega)
  rw [deleteStore, rd8_recounted (Memory.wf_zero _ h _), hzero]
  by_cases h5 : j = 5
  · rw [if_pos h5, if_neg (by omega), if_pos h5]
  · rw [if_neg h5, if_neg h5]

theorem exec_profCommit {id : BitVec 8} {p : Fin 10} (h : id.toNat = p.val) (s : State) :
    exec (.profCommit id) s = .next { s with store := commitStore s.store p } := by
  simp only [exec, execProfCommit, slotOperand_eq_some_iff.2 h, State.withStore]

theorem exec_profDelete {id : BitVec 8} {p : Fin 10} (h : id.toNat = p.val) (s : State) :
    exec (.profDelete id) s = .next
      { s with store := deleteStore s.store p, active := if s.active = some p then none else s.active } := by
  simp only [exec, execProfDelete, slotOperand_eq_some_iff.2 h, State.withStore, State.withActive]

/-- Settles O31: three byte writes, of which the recount reads the first two. -/
theorem profCommitTerminatesAndRecounts : Obligations.ProfCommitTerminatesAndRecounts := by
  unfold Obligations.ProfCommitTerminatesAndRecounts
  refine ⟨formatICommand (by decide) fun w hw => by simp only [decodeWord, opField_toNat, hw],
    fun s id hwf => ⟨fun p hp => ⟨_, exec_profCommit hp s, wf_commitStore hwf p, fun j => ?_⟩, fun hid => ?_⟩⟩
  · rw [← recount_eq]
    exact rd8_commitStore hwf p j
  · exact exec_of_rejects (decide_eq_true hid)

/-- Settles O32: the slot is zeroed before the recount, and the selection is compared with the slot. -/
theorem profDeleteZeroesSlot : Obligations.ProfDeleteZeroesSlot := by
  unfold Obligations.ProfDeleteZeroesSlot
  refine ⟨formatICommand (by decide) fun w hw => by simp only [decodeWord, opField_toNat, hw],
    fun s id hwf => ⟨fun p hp => ⟨_, exec_profDelete hp s, wf_deleteStore hwf p, fun j => ?_⟩, fun hid => ?_⟩⟩
  · rw [← recount_eq]
    exact rd8_deleteStore hwf p j
  · exact exec_of_rejects (decide_eq_true hid)

/-! ## Selection -/

/-- A slot with a name and a count is selected (R163). -/
theorem exec_setActive {id : BitVec 8} {p : Fin 10} {s : State} (h : id.toNat = p.val)
    (hslot : emptySlot s.store p = false) : exec (.setActive id) s = .next { s with active := some p } := by
  simp only [exec, execSetActive, slotOperand_eq_some_iff.2 h, hslot, Bool.false_eq_true, if_false, State.withActive]

/-- Settles O29: SET_ACTIVE is rejected exactly where the operand names no slot or an empty one. -/
theorem setActiveSelectsNonEmptySlot : Obligations.SetActiveSelectsNonEmptySlot := by
  unfold Obligations.SetActiveSelectsNonEmptySlot
  refine ⟨formatICommand (by decide) fun w hw => by simp only [decodeWord, opField_toNat, hw],
    fun s id => ⟨fun p hp => ⟨fun hfull => ?_, fun hempty => ?_⟩, fun hid => ?_⟩⟩
  · exact exec_setActive hp (emptySlot_eq_false_iff.2 hfull)
  · obtain ⟨hr, -, -⟩ := rejects_of_slot s (slotOperand_eq_some_iff.2 hp)
    exact exec_of_rejects (hr.trans (emptySlot_eq_true_iff.2 hempty))
  · obtain ⟨hr, -, -⟩ := rejects_of_no_slot s (slotOperand_eq_none_iff.2 hid)
    exact exec_of_rejects hr

/-- Settles O30: with `ACTIVE` NONE there is no valid profile, so the dispatch of R233 takes the legacy EQ. -/
theorem clearActiveSelectsNone : Obligations.ClearActiveSelectsNone := by
  unfold Obligations.ClearActiveSelectsNone
  refine ⟨formatNCommand (by decide) fun w hw => by simp only [decodeWord, opField_toNat, hw], fun s =>
    ⟨rfl, readReply_register _ .active, fun words vs => rfl⟩⟩

/-! ## `BQS` -/

theorem getDelay_zeroBqs (k : Fin 10) (c : Fin 2) : getDelay zeroBqs k c = ⟨F32.zero, F32.zero⟩ :=
  Vector.get_replicate _ _ _

/-- Settles O28: a zeroed `BQS` shows +0.0 in every word of its window. -/
theorem bqResetZeroesFilterState : Obligations.BqResetZeroesFilterState := by
  unfold Obligations.BqResetZeroesFilterState
  refine ⟨formatNCommand (by decide) fun w hw => by simp only [decodeWord, opField_toNat, hw],
    fun s => ⟨zeroBqs, rfl, fun w _ => ?_, rfl⟩⟩
  unfold State.bqsWord
  rw [bqsValue_zeroBqs, toBits_zero]

/-- A command other than the two that run the cascade and the three that zero `BQS` leaves it alone (R169). -/
theorem exec_keeps_bqs {i : Instr} {s t : State} (h : exec i s = .next t)
    (hi : (∃ id, i = .setActive id) ∨ i = .clearActive ∨ (∃ id, i = .profCommit id) ∨ (∃ id, i = .profDelete id) ∨
      i = .nop ∨ i = .aoStop ∨ i = .volCompute ∨ (∃ start len, i = .crcRun start len) ∨ i = .storeSeal) :
    t.bqs = s.bqs := by
  rcases hi with ⟨id, rfl⟩ | rfl | ⟨id, rfl⟩ | ⟨id, rfl⟩ | rfl | rfl | rfl | ⟨start, len, rfl⟩ | rfl <;> cases h
  · split
    · split <;> rfl
    · rfl
  · rfl
  · split <;> rfl
  · split
    · rw [State.withActive_bqs, State.withStore_bqs]
    · rfl
  · rfl
  · rfl
  · rfl
  · split <;> rfl
  · rfl

/-- Settles O33: the zeroing commands all write `zeroBqs`. -/
theorem onlyResetsZeroFilterState : Obligations.OnlyResetsZeroFilterState := by
  unfold Obligations.OnlyResetsZeroFilterState
  refine ⟨fun i s hi => ?_, fun i s hi => ?_⟩
  · obtain ⟨t, ht⟩ := exec_completes i s
    exact ⟨t, ht, exec_keeps_bqs ht hi⟩
  · rcases hi with rfl | rfl | rfl <;> exact ⟨_, rfl, getDelay_zeroBqs⟩

end Sys2Proof.Machine
end

section
/-! PROOFS. BQ_PROCESS (41_biquad.md R162) as an update of the state: its rejections, what it leaves alone, and a profile
whose filters do not run (O41, O42). -/

namespace Sys2Proof.Machine

open Sys2Proof

/-! ## The terms of the cascade as R153 and R157 state them -/

theorem filterRuns_eq_true_iff {m : Memory} {p k : Fin 10} : filterRuns m p k = true ↔
    m.rd8 (16 + 380 * p.val + 20 + 36 * k.val + 33) ≠ 0 ∧ m.rd8 (16 + 380 * p.val + 20 + 36 * k.val + 32) ≠ 0 := by
  simp [filterRuns, recordBase, slotBase]

theorem filterRuns_eq_false_iff {m : Memory} {p k : Fin 10} : filterRuns m p k = false ↔
    m.rd8 (16 + 380 * p.val + 20 + 36 * k.val + 33) = 0 ∨ m.rd8 (16 + 380 * p.val + 20 + 36 * k.val + 32) = 0 := by
  rw [← Bool.not_eq_true, filterRuns_eq_true_iff, not_and_or, not_not, not_not]

theorem validActive_eq_some_iff {s : State} {p : Fin 10} :
    s.validActive = some p ↔ s.active = some p ∧ emptySlot s.store p = false := by
  unfold State.validActive
  cases s.active with
  | none => simp
  | some q =>
    by_cases hq : emptySlot s.store q = true
    · refine ⟨fun h => by simp [hq] at h, fun ⟨e, hp⟩ => ?_⟩
      cases e
      exact absurd (hp.symm.trans hq) Bool.false_ne_true
    · refine ⟨fun h => ?_, fun ⟨e, _⟩ => (if_neg hq).trans e⟩
      cases (if_neg hq).symm.trans h
      exact ⟨rfl, Bool.eq_false_iff.2 hq⟩

theorem validActive_eq_none_iff {s : State} :
    s.validActive = none ↔ ∀ p, s.active = some p → emptySlot s.store p = true := by
  simp only [Option.eq_none_iff_forall_ne_some, ne_eq, validActive_eq_some_iff, not_and, Bool.not_eq_false]

/-- The cascade goes through the filters below the count, `min(filter_count, 10)` (R155). -/
theorem mem_take_tenth {k : Fin 10} {n : Nat} (hn : n ≤ 10) : k ∈ tenth.take n ↔ k.val < n := by
  have main : ∀ n : Fin 11, k ∈ tenth.take n.val ↔ k.val < n.val := by
    revert k
    decide
  exact main ⟨n, Nat.lt_succ_of_le hn⟩

theorem filterCount_le (m : Memory) (p : Fin 10) : filterCount m p ≤ 10 := Nat.min_le_right _ _

/-! ## The state BQ_PROCESS leaves -/

/-- BQ_PROCESS with legal operands (R162). -/
theorem exec_bqProcess {s : State} {nfr : BitVec 12} {vs : BitVec 9} (hn : nfr.toNat ≤ s.params.halfFrames)
    (hv : vs.toNat ≤ 256) : exec (.bqProcess nfr vs) s = .next (bqProcessWork s nfr vs) := by
  have hok : operandsOk s (.bqProcess nfr vs) = true := by
    simp [operandsOk, Instr.operandsLegal, Config.volUnity, hn, hv]
  simp only [exec, execBqProcess, hok, if_true]

theorem bqProcessWork_of_none {s : State} (h : s.validActive = none) (nfr : BitVec 12) (vs : BitVec 9) :
    bqProcessWork s nfr vs = s := by
  unfold bqProcessWork
  rw [bqProcess_none h]
  simp only [List.take_append_drop]

/-- The first n frames of `WORK` through the cascade of profile p at volume scale vs: new `BQS` and words (R159). -/
def workCascade (s : State) (p : Fin 10) (n vs : Nat) : Vector Delay 20 × List Word :=
  cascadeWords s.store p (callGain s.params.preAtt vs) 0 s.bqs (s.work.take (2 * n))

/-- `WORK` holds the frames of any legal operand (10_state.md R54). -/
theorem State.Inv.frames_le_work {s : State} (h : s.Inv) {n : Nat} (hn : n ≤ s.params.halfFrames) :
    2 * n ≤ s.work.length := by
  rw [h.work]
  omega

theorem length_workCascade {s : State} {n : Nat} (h : 2 * n ≤ s.work.length) (p : Fin 10) (vs : Nat) :
    (workCascade s p n vs).2.length = 2 * n :=
  (length_cascadeWords _ _ _ _ _ _).trans (List.length_take_of_le h)

/-- With a valid active profile the words processed are the cascade's, in place (R162). -/
theorem bqProcessWork_of_some {s : State} {p : Fin 10} {nfr : BitVec 12} (h : s.validActive = some p)
    (hw : 2 * nfr.toNat ≤ s.work.length) (vs : BitVec 9) :
    bqProcessWork s nfr vs = { s with
      work := (workCascade s p nfr.toNat vs.toNat).2 ++ s.work.drop (2 * nfr.toNat)
      bqs := (workCascade s p nfr.toNat vs.toNat).1
      cascadeFrames := s.cascadeFrames + nfr.toNat } := by
  have hframes : (s.work.take (2 * nfr.toNat)).length / 2 = nfr.toNat := by
    rw [List.length_take_of_le hw, Nat.mul_div_cancel_left _ (by decide)]
  unfold bqProcessWork
  rw [bqProcess_some h, hframes]
  rfl

/-! ## Frame -/

/-- A filter that does not run, or lies past the count, keeps its state through any number of words (R153, R155). -/
theorem cascadeWords_frame {m : Memory} {p k : Fin 10} (g : F32)
    (hk : k ∉ tenth.take (filterCount m p) ∨ filterRuns m p k = false) (c' : Fin 2) (words : List Word) (c : Fin 2)
    (b : Vector Delay 20) : getDelay (cascadeWords m p g c b words).1 k c' = getDelay b k c' := by
  induction words generalizing c b with
  | nil => rfl
  | cons v rest ih => exact (ih (c + 1) _).trans (cascadeFrom_frame m p c k c' _ _ _ (.inr hk))

/-- Settles O41: legal operands replace the processed words by the cascade's output, one for one. -/
theorem bqProcessFrame : Obligations.BqProcessFrame := by
  unfold Obligations.BqProcessFrame
  refine ⟨formatPCommand (by decide) fun w hw => by simp only [decodeWord, opField_toNat, hw],
    fun s nfr vs => ⟨fun hbad => ?_, fun hn hv hnone => ?_, fun hinv hn hv => ?_⟩⟩
  · exact exec_of_rejects (by simpa [rejects] using hbad)
  · have hva : s.validActive = none := validActive_eq_none_iff.2 fun p hp => emptySlot_eq_true_iff.2 (hnone p hp)
    rw [exec_bqProcess hn hv, bqProcessWork_of_none hva]
  · rw [exec_bqProcess hn hv]
    cases hva : s.validActive with
    | none =>
      rw [bqProcessWork_of_none hva]
      exact ⟨s.work, s.bqs, s.cascadeFrames, rfl, rfl, fun _ _ => rfl, nofun, nofun⟩
    | some p =>
      have hw := hinv.frames_le_work hn
      have hlen := length_workCascade hw p vs.toNat
      rw [bqProcessWork_of_some hva hw]
      refine ⟨_, _, _, rfl, ?_, fun w hge => ?_, fun q _ w hlt => ?_, fun q hq f c hoff => ?_⟩
      · rw [List.length_append, hlen, List.length_drop, Nat.add_sub_cancel' hw]
      · rw [List.getD_append_right _ _ _ _ (hlen ▸ hge), hlen, List.getD_eq_getElem?_getD, List.getElem?_drop,
          Nat.add_sub_cancel' hge, List.getD_eq_getElem?_getD]
      · rw [List.getD_append _ _ _ _ (hlen ▸ hlt)]
        exact getD_of_forall_mem (inSampleRange_cascadeWords _ _ _ _ _ _) inSampleRange_zero w
      · cases hq
        refine cascadeWords_frame _ (hoff.imp (fun hpast => ?_) filterRuns_eq_false_iff.2) c _ 0 _
        rw [mem_take_tenth (filterCount_le _ _)]
        exact Nat.not_lt.2 ((Nat.min_le_left _ _).trans hpast)

/-! ## Filters that do not run -/

theorem cascadeFrom_off {m : Memory} {p : Fin 10} (c : Fin 2) {ks : List (Fin 10)}
    (h : ∀ k ∈ ks, filterRuns m p k = false) (b : Vector Delay 20) (x : F32) : cascadeFrom m p c ks b x = (b, x) := by
  induction ks with
  | nil => rfl
  | cons k ks ih =>
    obtain ⟨hk, hks⟩ := List.forall_mem_cons.1 h
    rw [cascadeFrom, hk, if_neg Bool.false_ne_true, ih hks]

theorem cascadeWords_off {m : Memory} {p : Fin 10} (h : ∀ k, filterRuns m p k = false) (g : F32) (words : List Word)
    (c : Fin 2) (b : Vector Delay 20) :
    cascadeWords m p g c b words = (b, words.map fun v => sampleOut (sampleIn v g)) := by
  induction words generalizing c with
  | nil => rfl
  | cons v rest ih =>
    have hcascade : cascade m p c b (sampleIn v g) = (b, sampleIn v g) := cascadeFrom_off c (fun k _ => h k) _ _
    simp only [cascadeWords, hcascade, ih, List.map_cons]

/-- Settles O42: with no filter running the cascade passes the scaled sample on. -/
theorem bqProcessFiltersOff : Obligations.BqProcessFiltersOff := by
  unfold Obligations.BqProcessFiltersOff
  intro s nfr vs p hinv hn hv hva hoff g
  rw [exec_bqProcess hn hv, bqProcessWork_of_some hva (hinv.frames_le_work hn), workCascade,
    cascadeWords_off fun k => filterRuns_eq_false_iff.2 (hoff k)]
  rfl

end Sys2Proof.Machine
end

section
/-! PROOFS. The channels of the cascade (41_biquad.md R159, R160): each is a cascade of its own words with its own `BQS`
slots (O44). -/

namespace Sys2Proof.Machine

open Sys2Proof

/-- The same filter state on channel c. -/
abbrev SameDelays (c : Fin 2) (b b' : Vector Delay 20) : Prop := ∀ k : Fin 10, getDelay b k c = getDelay b' k c

/-- A write of the same value to the same slot keeps it. -/
theorem sameDelays_setDelay {c : Fin 2} {b b' : Vector Delay 20} (h : SameDelays c b b') (k : Fin 10) (d : Delay) :
    SameDelays c (setDelay b k c d) (setDelay b' k c d) := by
  intro j
  rw [getDelay_setDelay, getDelay_setDelay, h j]

/-- The cascade on channel c reads no slot of the other channel. -/
theorem cascadeFrom_congr (m : Memory) (p : Fin 10) {c : Fin 2} (ks : List (Fin 10)) {b b' : Vector Delay 20}
    (h : SameDelays c b b') (x : F32) :
    SameDelays c (cascadeFrom m p c ks b x).1 (cascadeFrom m p c ks b' x).1 ∧
      (cascadeFrom m p c ks b x).2 = (cascadeFrom m p c ks b' x).2 := by
  induction ks generalizing b b' x with
  | nil => exact ⟨h, rfl⟩
  | cons k ks ih =>
    unfold cascadeFrom
    rw [h k]
    split
    · exact ih (sameDelays_setDelay h k _) _
    · exact ih h x

/-- The words of channel c alone through the cascade, from filter state `b`. -/
def channelRun (m : Memory) (p : Fin 10) (g : F32) (c : Fin 2) : Vector Delay 20 → List Word →
    Vector Delay 20 × List Word
  | b, [] => (b, [])
  | b, v :: rest =>
    ((channelRun m p g c (cascade m p c b (sampleIn v g)).1 rest).1,
      sampleOut (cascade m p c b (sampleIn v g)).2 :: (channelRun m p g c (cascade m p c b (sampleIn v g)).1 rest).2)

/-- The place of channel c's first word where the next word is on channel d. -/
def wordsUntil (d c : Fin 2) : Nat := if d = c then 0 else 1

theorem wordsUntil_succ_self (c : Fin 2) : wordsUntil (c + 1) c = 1 := by revert c; decide

theorem wordsUntil_succ_of_ne {d c : Fin 2} (h : d ≠ c) : wordsUntil (d + 1) c = 0 := by revert d c; decide

/-- What BQ_PROCESS does on channel c is that channel's own run, and depends on that channel's slots only. -/
theorem cascadeWords_channel (m : Memory) (p : Fin 10) (g : F32) (c : Fin 2) (words : List Word) (d : Fin 2)
    {b b' : Vector Delay 20} (h : SameDelays c b b') :
    SameDelays c (cascadeWords m p g d b words).1 (channelRun m p g c b' (channelWords (wordsUntil d c) words)).1 ∧
      channelWords (wordsUntil d c) (cascadeWords m p g d b words).2 =
        (channelRun m p g c b' (channelWords (wordsUntil d c) words)).2 := by
  induction words generalizing d b b' with
  | nil => exact ⟨h, rfl⟩
  | cons v rest ih =>
    by_cases hd : d = c
    · subst hd
      obtain ⟨hb, hy⟩ := cascadeFrom_congr m p (tenth.take (filterCount m p)) h (sampleIn v g)
      obtain ⟨hslots, hwords⟩ := ih (d + 1) hb
      rw [wordsUntil_succ_self] at hslots hwords
      rw [wordsUntil, if_pos rfl]
      exact ⟨hslots, congrArg₂ List.cons (congrArg sampleOut hy) hwords⟩
    · have hb : SameDelays c (cascade m p d b (sampleIn v g)).1 b' := fun k =>
        (cascadeFrom_frame m p d k c _ _ _ (.inl (Ne.symm hd))).trans (h k)
      obtain ⟨hslots, hwords⟩ := ih (d + 1) hb
      rw [wordsUntil_succ_of_ne hd] at hslots hwords
      rw [wordsUntil, if_neg hd]
      exact ⟨hslots, hwords⟩

theorem wordsUntil_zero (c : Fin 2) : wordsUntil 0 c = c.val := by revert c; decide

/-- The same for the words of `WORK`, of which the first is on channel 0 (R160). -/
theorem workCascade_channel {s : State} {b : Vector Delay 20} {c : Fin 2} (h : SameDelays c s.bqs b) (p : Fin 10)
    (n vs : Nat) :
    let run := channelRun s.store p (callGain s.params.preAtt vs) c b (channelWords c.val (s.work.take (2 * n)))
    SameDelays c (workCascade s p n vs).1 run.1 ∧ channelWords c.val (workCascade s p n vs).2 = run.2 := by
  have hrun := cascadeWords_channel s.store p (callGain s.params.preAtt vs) c (s.work.take (2 * n)) 0 h
  rwa [wordsUntil_zero] at hrun

/-- The selected profile is valid by the store and `ACTIVE` alone (R157). -/
theorem validActive_congr {s t : State} (hm : s.store = t.store) (ha : s.active = t.active) :
    s.validActive = t.validActive := by
  unfold State.validActive
  rw [hm, ha]

/-- Settles O44: both runs are, on channel c, the same run of that channel. -/
theorem channelsIndependent : Obligations.ChannelsIndependent := by
  unfold Obligations.ChannelsIndependent
  intro c s t nfr vs hs ht hn hv hsame hwords
  obtain ⟨hm, ha, hp, hb⟩ := hsame
  have hnt : nfr.toNat ≤ t.params.halfFrames := hp ▸ hn
  have hva := validActive_congr hm ha
  refine ⟨_, _, exec_bqProcess hn hv, exec_bqProcess hnt hv, ?_⟩
  cases hq : s.validActive with
  | none =>
    rw [bqProcessWork_of_none hq, bqProcessWork_of_none (hva ▸ hq)]
    exact ⟨⟨hm, ha, hp, hb⟩, hwords⟩
  | some q =>
    have hws := hs.frames_le_work hn
    have hwt := ht.frames_le_work hnt
    rw [bqProcessWork_of_some hq hws, bqProcessWork_of_some (hva ▸ hq) hwt]
    obtain ⟨hslots, hout⟩ := workCascade_channel (fun _ => rfl : SameDelays c s.bqs s.bqs) q nfr.toNat vs.toNat
    obtain ⟨hslots', hout'⟩ := workCascade_channel (fun k => (hb k).symm : SameDelays c t.bqs s.bqs) q nfr.toNat vs.toNat
    rw [← hm, ← hp, ← hwords] at hslots' hout'
    refine ⟨⟨hm, ha, hp, fun k => (hslots k).trans (hslots' k).symm⟩, ?_⟩
    rw [List.take_left' (length_workCascade hws q vs.toNat), List.take_left' (length_workCascade hwt q vs.toNat),
      hout, hout']

end Sys2Proof.Machine
end

section
/-! PROOFS. What the cascade computes (41_biquad.md R154 to R156, R159): one sample filter by filter, one frame, and several
frames (O43). -/

namespace Sys2Proof.Machine

open Sys2Proof

/-! ## One sample, filter by filter -/

/-- Filters in two parts: the second starts from what the first left. -/
theorem cascadeFrom_append (m : Memory) (p : Fin 10) (c : Fin 2) (ks ls : List (Fin 10)) (b : Vector Delay 20)
    (x : F32) :
    cascadeFrom m p c (ks ++ ls) b x =
      cascadeFrom m p c ls (cascadeFrom m p c ks b x).1 (cascadeFrom m p c ks b x).2 := by
  induction ks generalizing b x with
  | nil => rfl
  | cons k ks ih =>
    simp only [List.cons_append, cascadeFrom]
    split <;> exact ih _ _

/-- The value that enters filter k when `x` enters the cascade; with k the number of filters, the cascade's output. -/
def filterInput (m : Memory) (p : Fin 10) (c : Fin 2) (b : Vector Delay 20) (x : F32) (k : Nat) : F32 :=
  (cascadeFrom m p c (tenth.take k) b x).2

/-- The output of filter k for the sample that enters it and the state the frame found in its slot (R154). -/
def filterOutput (m : Memory) (p : Fin 10) (c : Fin 2) (b : Vector Delay 20) (x : F32) (k : Fin 10) : F32 :=
  sectionOut (filterCoefs m p k) (getDelay b k c) (filterInput m p c b x k.val)

theorem tenth_take_succ (k : Fin 10) : tenth.take (k.val + 1) = tenth.take k.val ++ [k] := by revert k; decide

theorem not_mem_tenth_take (k : Fin 10) : k ∉ tenth.take k.val := by
  rw [mem_take_tenth (Nat.le_of_lt k.isLt)]
  exact Nat.lt_irrefl _

/-- No filter after filter k is filter k again. -/
theorem tenth_take_split {k : Fin 10} {n : Nat} (hn : n ≤ 10) (hk : k.val < n) :
    ∃ after, tenth.take n = tenth.take (k.val + 1) ++ after ∧ k ∉ after := by
  have main : ∀ (k : Fin 10) (n : Fin 11), k.val < n.val →
      tenth.take n.val = tenth.take (k.val + 1) ++ (tenth.take n.val).drop (k.val + 1) ∧
        k ∉ (tenth.take n.val).drop (k.val + 1) := by decide
  exact ⟨_, main k ⟨n, Nat.lt_succ_of_le hn⟩ hk⟩

section

variable {m : Memory} {p k : Fin 10} (c : Fin 2) (b : Vector Delay 20) (x : F32)

/-- The filters before filter k left its slot alone. -/
theorem getDelay_before (k : Fin 10) : getDelay (cascadeFrom m p c (tenth.take k.val) b x).1 k c = getDelay b k c :=
  cascadeFrom_frame m p c k c _ _ _ (.inr (.inl (not_mem_tenth_take k)))

/-- A running filter outputs and updates its slot by the DF2T equations (R154). -/
theorem cascadeFrom_take_runs (h : filterRuns m p k = true) :
    cascadeFrom m p c (tenth.take (k.val + 1)) b x =
      (setDelay (cascadeFrom m p c (tenth.take k.val) b x).1 k c (sectionNext (filterCoefs m p k) (getDelay b k c)
        (filterInput m p c b x k.val) (filterOutput m p c b x k)), filterOutput m p c b x k) := by
  rw [tenth_take_succ, cascadeFrom_append, cascadeFrom, if_pos h, getDelay_before]
  rfl

/-- A filter that does not run passes its input on (R153, R155). -/
theorem cascadeFrom_take_off (h : filterRuns m p k = false) :
    cascadeFrom m p c (tenth.take (k.val + 1)) b x = cascadeFrom m p c (tenth.take k.val) b x := by
  rw [tenth_take_succ, cascadeFrom_append, cascadeFrom, h, if_neg Bool.false_ne_true]
  rfl

theorem filterInput_succ_runs (h : filterRuns m p k = true) :
    filterInput m p c b x (k.val + 1) = filterOutput m p c b x k :=
  congrArg Prod.snd (cascadeFrom_take_runs c b x h)

theorem filterInput_succ_off (h : filterRuns m p k = false) :
    filterInput m p c b x (k.val + 1) = filterInput m p c b x k.val :=
  congrArg Prod.snd (cascadeFrom_take_off c b x h)

/-- A filter's slot is written once, when its turn comes. -/
theorem getDelay_cascade_runs (hk : k.val < filterCount m p) (h : filterRuns m p k = true) :
    getDelay (cascade m p c b x).1 k c = sectionNext (filterCoefs m p k) (getDelay b k c)
      (filterInput m p c b x k.val) (filterOutput m p c b x k) := by
  obtain ⟨after, hsplit, hafter⟩ := tenth_take_split (filterCount_le m p) hk
  rw [cascade, hsplit, cascadeFrom_append, cascadeFrom_frame m p c k c _ _ _ (.inr (.inl hafter)),
    cascadeFrom_take_runs c b x h, getDelay_setDelay, if_pos ⟨rfl, rfl⟩]

theorem getDelay_cascade_off (h : ¬ (k.val < filterCount m p ∧ filterRuns m p k = true)) :
    getDelay (cascade m p c b x).1 k c = getDelay b k c := by
  refine cascadeFrom_frame m p c k c _ _ _ (.inr ?_)
  rwa [not_and_or, ← mem_take_tenth (filterCount_le m p), Bool.not_eq_true] at h

end

/-! ## One frame -/

/-- A frame has one word on each channel (R160). -/
theorem channelWords_frame {words : List Word} (h : words.length = 2) (c : Fin 2) :
    channelWords c.val words = [words.getD c.val 0] := by
  match words, h with
  | [v, w], _ => fin_cases c <;> rfl

theorem getD_take_of_lt {l : List Word} {k n : Nat} (h : k < n) : (l.take n).getD k 0 = l.getD k 0 := by
  rw [List.getD_eq_getElem?_getD, List.getElem?_take_of_lt h, List.getD_eq_getElem?_getD]

/-- One frame on channel c is one sample through the cascade (R155, R159). -/
theorem workCascade_frame {s : State} (hw : 2 ≤ s.work.length) (p : Fin 10) (vs : Nat) (c : Fin 2) :
    let out := cascade s.store p c s.bqs (sampleIn (s.work.getD c.val 0) (callGain s.params.preAtt vs))
    SameDelays c (workCascade s p 1 vs).1 out.1 ∧ (workCascade s p 1 vs).2.getD c.val 0 = sampleOut out.2 := by
  obtain ⟨hslots, hwords⟩ := workCascade_channel (fun _ => rfl : SameDelays c s.bqs s.bqs) p 1 vs
  have hout : (workCascade s p 1 vs).2.length = 2 := length_workCascade hw p vs
  rw [channelWords_frame (List.length_take_of_le hw), getD_take_of_lt c.isLt] at hslots hwords
  rw [channelWords_frame hout] at hwords
  exact ⟨hslots, List.head_eq_of_cons_eq hwords⟩

/-! ## Several frames -/

theorem channel_after_frame (c : Fin 2) : c + 1 + 1 = c := by revert c; decide

/-- After a whole number of frames the next word is on the first channel again. -/
theorem cascadeWords_append (m : Memory) (p : Fin 10) (g : F32) (c : Fin 2) (rest : List Word) (n : Nat)
    {words : List Word} (h : words.length = 2 * n) (b : Vector Delay 20) :
    cascadeWords m p g c b (words ++ rest) =
      ((cascadeWords m p g c (cascadeWords m p g c b words).1 rest).1,
        (cascadeWords m p g c b words).2 ++ (cascadeWords m p g c (cascadeWords m p g c b words).1 rest).2) := by
  induction n generalizing words b with
  | zero =>
    cases List.length_eq_zero_iff.1 h
    rfl
  | succ n ih =>
    match words, h with
    | v :: w :: words, h =>
      have hlen : words.length = 2 * n := by simp only [List.length_cons] at h; omega
      have hc := channel_after_frame c
      simp only [List.cons_append, cascadeWords, hc, ih hlen]

theorem bqProcess_append (s : State) {words : List Word} {n : Nat} (h : words.length = 2 * n) (rest : List Word)
    (vs : Nat) :
    bqProcess s (words ++ rest) vs =
      ((bqProcess (bqProcess s words vs).1 rest vs).1,
        (bqProcess s words vs).2 ++ (bqProcess (bqProcess s words vs).1 rest vs).2) := by
  cases hp : s.validActive with
  | none => rw [bqProcess_none hp, bqProcess_none hp, bqProcess_none hp]
  | some p =>
    have hframes : (words ++ rest).length / 2 = words.length / 2 + rest.length / 2 := by
      rw [List.length_append]
      omega
    have hp' : (bqProcess s words vs).1.validActive = some p := by
      rw [bqProcess_some hp]
      exact hp
    rw [bqProcess_some hp, bqProcess_some hp', bqProcess_some hp, cascadeWords_append _ _ _ _ _ n h, hframes,
      ← Nat.add_assoc]

/-- `WORK <- w`. -/
def State.withWork (s : State) (w : List Word) : State := { s with work := w }

@[simp] theorem State.withWork_work (s : State) (w : List Word) : (s.withWork w).work = w := rfl

@[simp] theorem State.withWork_withWork (s : State) (v w : List Word) : (s.withWork v).withWork w = s.withWork w := rfl

/-- `bq_process` works on the words it is given and does not look at `WORK`. -/
theorem bqProcess_withWork (s : State) (w words : List Word) (vs : Nat) :
    bqProcess (s.withWork w) words vs = ((bqProcess s words vs).1.withWork w, (bqProcess s words vs).2) := by
  cases hp : s.validActive with
  | none => rw [bqProcess_none hp, bqProcess_none (s := s.withWork w) hp]
  | some p =>
    rw [bqProcess_some hp, bqProcess_some (s := s.withWork w) hp]
    rfl

theorem bqProcessWork_eq (s : State) (nfr : BitVec 12) (vs : BitVec 9) {n : Nat} (h : nfr.toNat = n) :
    bqProcessWork s nfr vs = (bqProcess s (s.work.take (2 * n)) vs.toNat).1.withWork
      ((bqProcess s (s.work.take (2 * n)) vs.toNat).2 ++ s.work.drop (2 * n)) := by
  subst h
  rfl

theorem toNat_frames {n : Nat} (h : n ≤ 256) : (BitVec.ofNat 12 n).toNat = n :=
  (BitVec.toNat_ofNat _ _).trans (Nat.mod_eq_of_lt (by omega))

/-- n + 1 frames are n frames and then one more, brought to the front of `WORK`. -/
theorem bqProcessWork_succ {s t u : State} {n : Nat} {vs : BitVec 9} (hn : n + 1 ≤ 256)
    (hw : 2 * (n + 1) ≤ s.work.length) (ht : t = bqProcessWork s (BitVec.ofNat 12 n) vs)
    (hu : u = bqProcessWork (t.withWork (t.work.drop (2 * n) ++ t.work.take (2 * n))) 1 vs) :
    bqProcessWork s (BitVec.ofNat 12 (n + 1)) vs =
      u.withWork (t.work.take (2 * n) ++ u.work.take 2 ++ t.work.drop (2 * n + 2)) := by
  have hfirst : (s.work.take (2 * n)).length = 2 * n := List.length_take_of_le (by omega)
  have hrest : 2 ≤ (s.work.drop (2 * n)).length := by rw [List.length_drop]; omega
  rw [bqProcessWork_eq s _ vs (toNat_frames (Nat.le_of_succ_le hn))] at ht
  rw [bqProcessWork_eq s _ vs (toNat_frames hn), Nat.mul_succ, List.take_add, bqProcess_append s hfirst]
  have hdoneLen := (length_bqProcess s (s.work.take (2 * n)) vs.toNat).trans hfirst
  generalize bqProcess s (s.work.take (2 * n)) vs.toNat = done at ht hdoneLen ⊢
  have htake : t.work.take (2 * n) = done.2 := by rw [ht]; exact List.take_left' hdoneLen
  have hdrop : t.work.drop (2 * n) = s.work.drop (2 * n) := by rw [ht]; exact List.drop_left' hdoneLen
  rw [bqProcessWork_eq _ 1 vs (n := 1) rfl, hdrop, htake, ht, State.withWork_withWork, bqProcess_withWork,
    State.withWork_work, State.withWork_withWork, Nat.mul_one, List.take_append_of_le_length hrest] at hu
  have hlastLen := (length_bqProcess done.1 ((s.work.drop (2 * n)).take 2) vs.toNat).trans
    (List.length_take_of_le hrest)
  have hutake : u.work.take 2 = (bqProcess done.1 ((s.work.drop (2 * n)).take 2) vs.toNat).2 := by
    rw [hu]
    exact List.take_left' hlastLen
  rw [hutake, htake, ← List.drop_drop, ← List.drop_drop, hdrop, hu, State.withWork_withWork]

/-- Settles O43: a frame is one sample through the filters in order on each channel, and frames follow one another. -/
theorem bqProcessComputesCascade : Obligations.BqProcessComputesCascade := by
  unfold Obligations.BqProcessComputesCascade
  refine ⟨fun s vs p hinv hv hactive hname hcount => ?_, fun s vs n hinv hv hn => ?_⟩
  · have hone : (1 : BitVec 12).toNat ≤ s.params.halfFrames := hinv.params.1.1
    have hva : s.validActive = some p := validActive_eq_some_iff.2 ⟨hactive, emptySlot_eq_false_iff.2 ⟨hname, hcount⟩⟩
    have hw : 2 ≤ s.work.length := hinv.frames_le_work hone
    refine ⟨_, fun c => filterInput s.store p c s.bqs (sampleIn (s.work.getD c.val 0)
      (callGain s.params.preAtt vs.toNat)), exec_bqProcess hone hv, fun c => ?_⟩
    obtain ⟨hslots, hout⟩ := workCascade_frame hw p vs.toNat c
    have hlen : (workCascade s p 1 vs.toNat).2.length = 2 := length_workCascade hw p vs.toNat
    rw [bqProcessWork_of_some (nfr := 1) hva hw]
    refine ⟨rfl, ?_, fun k => ⟨?_, ?_⟩⟩
    · exact (List.getD_append _ _ _ _ (c.isLt.trans_eq hlen.symm)).trans hout
    · rintro ⟨hk, hon⟩
      have hrun := filterRuns_eq_true_iff.2 hon
      exact ⟨filterInput_succ_runs c _ _ hrun, (hslots k).trans (getDelay_cascade_runs c _ _ hk hrun)⟩
    · intro hnot
      have hoff : ¬ (k.val < filterCount s.store p ∧ filterRuns s.store p k = true) := fun ⟨hk, hrun⟩ =>
        hnot ⟨hk, filterRuns_eq_true_iff.1 hrun⟩
      exact ⟨(hslots k).trans (getDelay_cascade_off c _ _ hoff), fun hk =>
        filterInput_succ_off c _ _ (Bool.eq_false_iff.2 fun hrun => hoff ⟨hk, hrun⟩)⟩
  · have hle := hinv.halfFrames_le
    have hexec {k : Nat} (hk : k ≤ s.params.halfFrames) := exec_bqProcess (s := s) (nfr := BitVec.ofNat 12 k)
      ((toNat_frames (hk.trans hle)).trans_le hk) hv
    have ht := hexec (k := n) (by omega)
    refine ⟨_, _, ht, exec_bqProcess (nfr := 1) ?_ hv, ?_⟩
    · exact (exec_keeps ht).params ▸ hinv.params.1.1
    · rw [hexec hn, bqProcessWork_succ (hn.trans hle) (hinv.frames_le_work hn) rfl rfl]
      rfl

end Sys2Proof.Machine
end

section
/-! PROOFS. Silence (41_biquad.md R162, 44_volume.md R295): the values that zero leads to, whatever it meets, and a cascade
that holds no other (O45). -/

namespace Sys2Proof.F32

open Sys2Proof Sys2Proof.Machine

/-! ## Values that zero leads to -/

/-- A silent value is a NaN or a zero of either sign. -/
theorem silent_cases {x : F32} (h : x.silent = true) : x = .nan ∨ ∃ s e, x = .fin s e 0 := by
  cases x with
  | nan => exact .inl rfl
  | inf s => cases h
  | fin s e m => exact .inr ⟨s, e, by rw [beq_iff_eq.1 h]⟩

theorem silent_fmul_right (a : F32) {b : F32} (h : b.silent = true) : (fmul a b).silent = true := by
  rcases silent_cases h with rfl | ⟨t, f, rfl⟩
  · rw [fmul_nan_right]
    rfl
  · cases a with
    | nan | inf => rfl
    | fin s e m => rw [fmul_of_eq_zero (Nat.mul_zero m)]; rfl

theorem silent_fmul_left {a : F32} (h : a.silent = true) (b : F32) : (fmul a b).silent = true := by
  rcases silent_cases h with rfl | ⟨s, e, rfl⟩
  · rfl
  · cases b with
    | nan | inf => rfl
    | fin t f n => rw [fmul_of_eq_zero (Nat.zero_mul n)]; rfl

theorem silent_fadd {a b : F32} (ha : a.silent = true) (hb : b.silent = true) : (fadd a b).silent = true := by
  rcases silent_cases ha with rfl | ⟨s, e, rfl⟩
  · rfl
  · rcases silent_cases hb with rfl | ⟨t, f, rfl⟩
    · rfl
    · have hsum : alignedSum s e 0 t f 0 = 0 := alignedSum_eq_zero_iff.2 (by simp [value])
      rw [fadd_of_sum_eq_zero hsum]
      rfl

theorem silent_fsub {a b : F32} (ha : a.silent = true) (hb : b.silent = true) : (fsub a b).silent = true := by
  refine silent_fadd ha ?_
  rcases silent_cases hb with rfl | ⟨t, f, rfl⟩ <;> rfl

theorem f2s24_of_silent {x : F32} (h : x.silent = true) : f2s24 x = 0 := by
  rcases silent_cases h with rfl | ⟨s, e, rfl⟩
  · rfl
  · rw [f2s24_eq rfl, value_fin_eq_zero_iff.2 rfl]
    rfl

end Sys2Proof.F32

namespace Sys2Proof.Machine

open Sys2Proof

/-! ## A cascade at rest -/

/-- Both accumulators hold a zero or NaN. -/
abbrev Delay.AtRest (d : Delay) : Prop := d.s1.silent = true ∧ d.s2.silent = true

/-- What holds of every slot and of the value written holds of every slot after the write. -/
theorem forall_get_setDelay {P : Delay → Prop} {b : Vector Delay 20} (hb : ∀ i : Fin 20, P (b.get i)) (f : Fin 10)
    (c : Fin 2) {d : Delay} (hd : P d) (i : Fin 20) : P ((setDelay b f c d).get i) := by
  have hget : (setDelay b f c d).get i = if (bqsIndex f c).val = i.val then d else b.get i :=
    Vector.getElem_set (bqsIndex f c).isLt i.isLt
  rw [hget]
  split
  · exact hd
  · exact hb i

theorem silent_sectionOut (co : Coefs) {d : Delay} (hd : d.AtRest) {x : F32} (hx : x.silent = true) :
    (sectionOut co d x).silent = true :=
  F32.silent_fadd (F32.silent_fmul_right _ hx) hd.1

theorem atRest_sectionNext (co : Coefs) {d : Delay} (hd : d.AtRest) {x y : F32} (hx : x.silent = true)
    (hy : y.silent = true) : (sectionNext co d x y).AtRest :=
  ⟨F32.silent_fadd (F32.silent_fsub (F32.silent_fmul_right _ hx) (F32.silent_fmul_right _ hy)) hd.2,
    F32.silent_fsub (F32.silent_fmul_right _ hx) (F32.silent_fmul_right _ hy)⟩

theorem cascadeFrom_atRest (m : Memory) (p : Fin 10) (c : Fin 2) (ks : List (Fin 10)) {b : Vector Delay 20}
    (hb : ∀ i : Fin 20, (b.get i).AtRest) {x : F32} (hx : x.silent = true) :
    (∀ i : Fin 20, ((cascadeFrom m p c ks b x).1.get i).AtRest) ∧ (cascadeFrom m p c ks b x).2.silent = true := by
  induction ks generalizing b x with
  | nil => exact ⟨hb, hx⟩
  | cons k ks ih =>
    unfold cascadeFrom
    split
    · have hd : (getDelay b k c).AtRest := hb _
      have hy := silent_sectionOut (filterCoefs m p k) hd hx
      exact ih (forall_get_setDelay hb k c (atRest_sectionNext _ hd hx hy)) hy
    · exact ih hb hx

/-- At gain 0 or NaN every sample enters the cascade silent. -/
theorem silent_sampleIn (v : Word) {g : F32} (hg : g.silent = true) : (sampleIn v g).silent = true :=
  F32.silent_fmul_right _ hg

theorem sampleOut_of_silent {y : F32} (h : y.silent = true) : sampleOut y = 0 := by
  rw [sampleOut, F32.f2s24_of_silent (F32.silent_fmul_left h _)]
  rfl

/-- At volume 0 the call gain is 0 or NaN whatever `PRE_ATT` is (R158, R162). -/
theorem silent_callGain_zero (preAtt : Word) : (callGain preAtt 0).silent = true :=
  F32.silent_fmul_right _ (F32.silent_fmul_left rfl _)

theorem cascadeWords_atRest (m : Memory) (p : Fin 10) {g : F32} (hg : g.silent = true) (words : List Word) (c : Fin 2)
    {b : Vector Delay 20} (hb : ∀ i : Fin 20, (b.get i).AtRest) :
    (∀ i : Fin 20, ((cascadeWords m p g c b words).1.get i).AtRest) ∧
      ∀ w ∈ (cascadeWords m p g c b words).2, w = 0 := by
  induction words generalizing c b with
  | nil => exact ⟨hb, nofun⟩
  | cons v rest ih =>
    obtain ⟨hslots, hy⟩ := cascadeFrom_atRest m p c (tenth.take (filterCount m p)) hb (silent_sampleIn v hg)
    obtain ⟨hrest, hwords⟩ := ih (c + 1) hslots
    exact ⟨hrest, List.forall_mem_cons.2 ⟨sampleOut_of_silent hy, hwords⟩⟩

/-- Settles O45: the gain is silent, so is every value the cascade meets, and a silent output is the sample 0. -/
theorem mutedCascadeAtRestIsSilent : Obligations.MutedCascadeAtRestIsSilent := by
  unfold Obligations.MutedCascadeAtRestIsSilent
  intro s nfr p hinv hn hva hrest
  have hw := hinv.frames_le_work hn
  obtain ⟨hslots, hwords⟩ := cascadeWords_atRest s.store p (silent_callGain_zero s.params.preAtt)
    (s.work.take (2 * nfr.toNat)) 0 hrest
  refine ⟨_, exec_bqProcess hn (Nat.zero_le 256), ?_⟩
  rw [bqProcessWork_of_some hva hw]
  refine ⟨fun w hlt => ?_, hslots⟩
  have hlen : w < (workCascade s p nfr.toNat 0).2.length := (length_workCascade hw p 0).symm ▸ hlt
  exact (List.getD_append _ _ _ _ hlen).trans
    ((List.getD_eq_getElem _ _ hlen).trans (hwords _ (List.getElem_mem hlen)))

end Sys2Proof.Machine
end

section
/-! PROOFS. The CRC32 loop (42_crc32.md R200, R201): format R commands, CRC_RUN (O34), and why one changed byte always
changes the checksum. -/

namespace Sys2Proof.Machine

open Sys2Proof

/-- An opcode whose row of the map (R117) is format R has one command word for each pair of operands (R114). -/
theorem formatRCommand {op : Nat} {i : BitVec 12 → BitVec 12 → Instr} (hop : op < 2 ^ 8)
    (hrow : ∀ w : Word, w.toNat % 2 ^ 8 = op → decodeWord w = formatR w i) : FormatRCommand op i := by
  intro start len
  have hstart := start.isLt
  have hlen := len.isLt
  generalize hw : BitVec.ofNat 32 (op + start.toNat * 2 ^ 8 + len.toNat * 2 ^ 20) = w
  have hword : w.toNat = op + start.toNat * 2 ^ 8 + len.toNat * 2 ^ 20 := by
    rw [← hw]
    exact (BitVec.toNat_ofNat _ _).trans (Nat.mod_eq_of_lt (by omega))
  have hstartField : startField w = start := extract_eq_of_div_mod (by omega)
  have hlenField : lenField w = len := extract_eq_of_div_mod (by omega)
  rw [hrow _ (by omega), formatR, hstartField, hlenField]

/-- A region inside the store passes the operand check of R116, and CRC_RUN then writes `CRC_RESULT` only (R201). -/
theorem exec_crcRun {s : State} {start len : BitVec 12} (h : start.toNat + len.toNat ≤ 3816) :
    exec (.crcRun start len) s = .next { s with crcResult := crc32 (s.store.bytes start.toNat len.toNat) } :=
  congrArg Host.Outcome.next (if_pos (decide_eq_true h))

/-- Settles O34: the loop is a fold of eight bit steps a byte, and R312 rejects a region past the store. -/
theorem crcRunComputesRegionCrc : Obligations.CrcRunComputesRegionCrc := by
  unfold Obligations.CrcRunComputesRegionCrc
  refine ⟨formatRCommand (by decide) fun w hw => by simp only [decodeWord, opField_toNat, hw],
    fun d => congrArg (· ^^^ 0xFFFFFFFF) (crcBytes_eq_foldl d _), by decide, fun s start len =>
    ⟨fun hfits => ⟨exec_crcRun hfits, fun hlen => ?_⟩, fun hpast => exec_of_rejects (decide_eq_true hpast)⟩⟩
  subst hlen
  rw [exec_crcRun hfits]
  exact congrArg (fun c => Host.Outcome.next { s with crcResult := c }) crc32_nil

/-! ## Different bytes, different checksums

Every stage of the loop is injective. `CRC_POLY` has bit 31 set and a shift clears that bit, so bit 31 of a bit step's
result is the bit that was shifted out. -/

theorem getLsbD_crcBit (c : Word) (k : Nat) :
    (crcBit c).getLsbD k = (c.getLsbD (1 + k) ^^ (c.getLsbD 0 && Config.crcPoly.getLsbD k)) := by
  unfold crcBit
  split
  case isTrue h => rw [BitVec.getLsbD_xor, BitVec.getLsbD_ushiftRight, h, Bool.true_and]
  case isFalse h => rw [BitVec.getLsbD_ushiftRight, Bool.eq_false_iff.2 h, Bool.false_and, Bool.xor_false]

theorem getLsbD_crcBit_top (c : Word) : (crcBit c).getLsbD 31 = c.getLsbD 0 := by
  have hpoly : Config.crcPoly.getLsbD 31 = true := by decide
  rw [getLsbD_crcBit, BitVec.getLsbD_of_ge c (1 + 31) (by decide), hpoly, Bool.and_true, Bool.false_xor]

theorem crcBit_injective : Function.Injective crcBit := by
  intro c d h
  have hlow : c.getLsbD 0 = d.getLsbD 0 := by rw [← getLsbD_crcBit_top, h, getLsbD_crcBit_top]
  refine BitVec.eq_of_getLsbD_eq fun k _ => ?_
  cases k with
  | zero => exact hlow
  | succ k =>
    have hbit := congrArg (BitVec.getLsbD · k) h
    simp only [getLsbD_crcBit, hlow, Bool.xor_left_inj] at hbit
    rwa [Nat.add_comm]

theorem crcByte_injective_left (b : Byte) : Function.Injective fun c => crcByte c b := fun _ _ h =>
  (BitVec.xor_left_inj _).1 (crcBit_injective.iterate 8 h)

theorem crcByte_injective_right (c : Word) : Function.Injective (crcByte c) := by
  intro a b h
  have hext : a.zeroExtend 32 = b.zeroExtend 32 := (BitVec.xor_right_inj _).1 (crcBit_injective.iterate 8 h)
  simpa using congrArg (BitVec.setWidth 8) hext

theorem crcBytes_cons (b : Byte) (rest : List Byte) (c : Word) :
    crcBytes (b :: rest) c = crcBytes rest (crcByte c b) := by
  simp only [crcBytes_eq_foldl, List.foldl_cons]

/-- Loops over the same bytes stay apart once they differ. -/
theorem crcBytes_injective (d : List Byte) : Function.Injective (crcBytes d) := by
  induction d with
  | nil => exact Function.injective_id
  | cons b rest ih =>
    intro c d h
    rw [crcBytes_cons, crcBytes_cons] at h
    exact crcByte_injective_left b (ih h)

/-- The checksum determines each byte of a list whose other bytes are known. -/
theorem crc32_injective_byte (pre post : List Byte) : Function.Injective fun b => crc32 (pre ++ b :: post) := by
  intro a b h
  simp only [crc32, crcBytes_append, crcBytes_cons, BitVec.xor_left_inj] at h
  exact crcByte_injective_right _ (crcBytes_injective post h)

end Sys2Proof.Machine
end

section
/-! PROOFS. Store validation (42_crc32.md R202 to R205): what EQ_INIT finds, the store STORE_SEAL leaves and the empty
store, and the corruption the checksum catches (O35 to O38). -/

namespace Sys2Proof.Machine

open Sys2Proof

theorem State.Inv.crcRegion {s : State} (h : s.Inv) : 16 ≤ s.params.crcLo ∧ s.params.crcHi ≤ 3816 := by
  obtain ⟨-, -, -, -, -, -, -, -, hlo, -, hhi⟩ := h.params
  exact ⟨hlo, hhi⟩

/-! ## The order of the checks -/

/-- What each verdict of R203 says of the store: the named check fails and those before it pass. -/
inductive StoreChecked (p : Config.Params) (m : Memory) : Reason → Prop
  | magic (hmagic : m.rd32 0 ≠ p.storeMagic) : StoreChecked p m .magic
  | version (hmagic : m.rd32 0 = p.storeMagic) (hversion : m.rd8 4 ≠ p.storeVersion) : StoreChecked p m .version
  | crc (hmagic : m.rd32 0 = p.storeMagic) (hversion : m.rd8 4 = p.storeVersion) (hcrc : m.rd32 8 ≠ regionCrc p m) :
    StoreChecked p m .crc
  | none (hmagic : m.rd32 0 = p.storeMagic) (hversion : m.rd8 4 = p.storeVersion) (hcrc : m.rd32 8 = regionCrc p m) :
    StoreChecked p m .none

theorem storeVerdict_checked (p : Config.Params) (m : Memory) : StoreChecked p m (storeVerdict p m) := by
  unfold storeVerdict
  split
  next hmagic => exact .magic hmagic
  next hmagic =>
    replace hmagic := not_not.1 hmagic
    split
    next hversion => exact .version hmagic hversion
    next hversion =>
      replace hversion := not_not.1 hversion
      split
      next hcrc => exact .crc hmagic hversion hcrc
      next hcrc => exact .none hmagic hversion (not_not.1 hcrc)

/-- The conditions of R203 exclude each other. -/
theorem StoreChecked.verdict_iff {p : Config.Params} {m : Memory} {r : Reason} (h : StoreChecked p m r) :
    (r = .magic ↔ m.rd32 0 ≠ p.storeMagic) ∧
      (r = .version ↔ m.rd32 0 = p.storeMagic ∧ m.rd8 4 ≠ p.storeVersion) ∧
      (r = .crc ↔ m.rd32 0 = p.storeMagic ∧ m.rd8 4 = p.storeVersion ∧ m.rd32 8 ≠ regionCrc p m) ∧
      (r = .none ↔ m.rd32 0 = p.storeMagic ∧ m.rd8 4 = p.storeVersion ∧ m.rd32 8 = regionCrc p m) := by
  cases h with
  | magic hmagic => simp [hmagic]
  | version hmagic hversion => simp [hmagic, hversion]
  | crc hmagic hversion hcrc => simp [hmagic, hversion, hcrc]
  | none hmagic hversion hcrc => simp [hmagic, hversion, hcrc]

theorem storeVerdict_eq_none_iff {p : Config.Params} {m : Memory} : storeVerdict p m = .none ↔
    m.rd32 0 = p.storeMagic ∧ m.rd8 4 = p.storeVersion ∧ m.rd32 8 = regionCrc p m := by
  obtain ⟨-, -, -, hnone⟩ := (storeVerdict_checked p m).verdict_iff
  exact hnone

theorem storeVerdict_eq_crc_iff {p : Config.Params} {m : Memory} : storeVerdict p m = .crc ↔
    m.rd32 0 = p.storeMagic ∧ m.rd8 4 = p.storeVersion ∧ m.rd32 8 ≠ regionCrc p m := by
  obtain ⟨-, -, hcrc, -⟩ := (storeVerdict_checked p m).verdict_iff
  exact hcrc

/-! ## Sealed stores -/

/-- The store STORE_SEAL leaves (R205). -/
def sealStore (p : Config.Params) (m : Memory) : Memory := m.wr32 8 (regionCrc p m)

theorem exec_storeSeal (s : State) : exec .storeSeal s = .next { s with store := sealStore s.params s.store } := rfl

theorem wf_sealStore {m : Memory} (h : m.wf) (p : Config.Params) : (sealStore p m).wf := Memory.wf_wr32 h _ _

theorem rd8_sealStore {m : Memory} (h : m.wf) (p : Config.Params) (j : Nat) : (sealStore p m).rd8 j =
    if 8 ≤ j ∧ j < 12 then (regionCrc p m).extractLsb' (8 * (j - 8)) 8 else m.rd8 j :=
  rd8_writeStore (size := .word) h (by decide) _ j

theorem rd8_sealStore_of_not_mem {m : Memory} (h : m.wf) (p : Config.Params) {j : Nat} (hj : ¬ (8 ≤ j ∧ j < 12)) :
    (sealStore p m).rd8 j = m.rd8 j :=
  (rd8_sealStore h p j).trans (if_neg hj)

/-- The checksum field is outside the checked region (R202, R205). -/
theorem regionCrc_sealStore {m : Memory} (h : m.wf) {p : Config.Params} (hp : 16 ≤ p.crcLo) :
    regionCrc p (sealStore p m) = regionCrc p m :=
  regionCrc_congr fun _ hlo _ => rd8_sealStore_of_not_mem h p (by omega)

theorem sealStore_sealStore {m : Memory} (h : m.wf) {p : Config.Params} (hp : 16 ≤ p.crcLo) :
    sealStore p (sealStore p m) = sealStore p m := by
  have hw := wf_sealStore h p
  refine Memory.ext_of_wf (wf_sealStore hw p) hw fun j => ?_
  rw [rd8_sealStore hw, regionCrc_sealStore h hp, rd8_sealStore h]
  exact ite_eq_right_iff.2 fun hj => (if_pos hj).symm

/-- Sealing makes the CRC check pass and leaves the two checks before it alone. -/
theorem storeVerdict_sealStore {m : Memory} (h : m.wf) {p : Config.Params} (hp : 16 ≤ p.crcLo)
    (hmagic : m.rd32 0 = p.storeMagic) (hversion : m.rd8 4 = p.storeVersion) :
    storeVerdict p (sealStore p m) = .none := by
  refine storeVerdict_eq_none_iff.2 ⟨?_, ?_, ?_⟩
  · rw [← hmagic]
    exact Memory.rd32_congr fun j _ hj => rd8_sealStore_of_not_mem h p (by omega)
  · rw [← hversion]
    exact rd8_sealStore_of_not_mem h p (by omega)
  · rw [regionCrc_sealStore h hp]
    exact Memory.rd32_wr32 h (by decide) _

/-! ## The empty store -/

/-- The empty store before its checksum is written (R204). -/
def emptyHeader (p : Config.Params) : Memory := ((Memory.mk []).wr32 0 p.storeMagic).wr8 4 p.storeVersion

theorem wf_emptyHeader (p : Config.Params) : (emptyHeader p).wf := Memory.wf_wr8 (Memory.wf_wr32 wf_empty _ _) _ _

theorem rd8_emptyHeader (p : Config.Params) (j : Nat) : (emptyHeader p).rd8 j =
    if j < 4 then p.storeMagic.extractLsb' (8 * j) 8 else if j = 4 then p.storeVersion else 0 := by
  have hmagic : ((Memory.mk []).wr32 0 p.storeMagic).rd8 j =
      if 0 ≤ j ∧ j < 4 then p.storeMagic.extractLsb' (8 * j) 8 else 0 :=
    rd8_writeStore (size := .word) wf_empty (by decide) _ j
  rw [emptyHeader, Memory.rd8_wr8 (Memory.wf_wr32 wf_empty _ _) (by decide), hmagic]
  by_cases h4 : j = 4
  · rw [if_pos h4, if_neg (by omega), if_pos h4]
  · simp only [h4, if_false, Nat.zero_le, true_and]

theorem regionCrc_zeros (p : Config.Params) :
    regionCrc p (Memory.mk []) = crc32 (List.replicate (p.crcHi - p.crcLo) 0) := by
  rw [regionCrc, Memory.bytes, funext fun k => rd8_empty (p.crcLo + k), List.map_const', List.length_range]

theorem regionCrc_emptyHeader {p : Config.Params} (hp : 16 ≤ p.crcLo) :
    regionCrc p (emptyHeader p) = regionCrc p (Memory.mk []) :=
  regionCrc_congr fun j hlo _ => by rw [rd8_emptyHeader, if_neg (by omega), if_neg (by omega), rd8_empty]

theorem emptyStore_eq_sealStore {p : Config.Params} (hp : 16 ≤ p.crcLo) :
    emptyStore p = sealStore p (emptyHeader p) := by
  rw [sealStore, regionCrc_emptyHeader hp]
  rfl

theorem rd8_emptyStore {p : Config.Params} (hp : 16 ≤ p.crcLo) (j : Nat) : (emptyStore p).rd8 j =
    if j < 4 then p.storeMagic.extractLsb' (8 * j) 8
    else if j = 4 then p.storeVersion
    else if 8 ≤ j ∧ j < 12 then (crc32 (List.replicate (p.crcHi - p.crcLo) 0)).extractLsb' (8 * (j - 8)) 8
    else 0 := by
  rw [emptyStore_eq_sealStore hp, rd8_sealStore (wf_emptyHeader p), rd8_emptyHeader, regionCrc_emptyHeader hp,
    regionCrc_zeros]
  by_cases hcrc : 8 ≤ j ∧ j < 12
  · rw [if_pos hcrc, if_neg (by omega), if_neg (by omega), if_pos hcrc]
  · simp only [hcrc, if_false]

/-- The empty store passes EQ_INIT (R203). -/
theorem storeVerdict_emptyStore {p : Config.Params} (hp : 16 ≤ p.crcLo) : storeVerdict p (emptyStore p) = .none := by
  rw [emptyStore_eq_sealStore hp]
  refine storeVerdict_sealStore (wf_emptyHeader p) hp ?_ (rd8_emptyHeader p 4)
  calc (emptyHeader p).rd32 0 = ((Memory.mk []).wr32 0 p.storeMagic).rd32 0 :=
        Memory.rd32_congr fun j _ hj =>
          (Memory.rd8_wr8 (Memory.wf_wr32 wf_empty _ _) (by decide) _ j).trans (if_neg (by omega))
    _ = p.storeMagic := Memory.rd32_wr32 wf_empty (by decide) _

/-! ## EQ_INIT and STORE_SEAL -/

theorem exec_eqInit_of_pass {s : State} (h : storeVerdict s.params s.store = .none) : exec .eqInit s = .next
    { s with storeValid := true, reason := .none, active := none, bqs := zeroBqs } := by
  simp only [exec, execEqInit, h, if_true, decide_true]

theorem exec_eqInit_of_fail {s : State} {r : Reason} (h : storeVerdict s.params s.store = r) (hr : r ≠ .none) :
    exec .eqInit s = .next { s with
      store := emptyStore s.params, storeValid := false, reason := r, active := none, bqs := zeroBqs } := by
  simp only [exec, execEqInit, h, hr, if_false, decide_false]

/-- Settles O35: the verdict says which check failed, and decides whether the store is kept. -/
theorem eqInitValidatesStore : Obligations.EqInitValidatesStore := by
  unfold Obligations.EqInitValidatesStore
  refine ⟨formatNCommand (by decide) fun w hw => by simp only [decodeWord, opField_toNat, hw], fun s hinv => ?_⟩
  obtain ⟨hlo, -⟩ := hinv.crcRegion
  obtain ⟨hmagic, hversion, hcrc, -⟩ := (storeVerdict_checked s.params s.store).verdict_iff
  refine ⟨_, _, rfl, hmagic, hversion, hcrc, fun hpass => if_pos hpass, fun hfail j => ?_⟩
  rw [if_neg hfail]
  exact rd8_emptyStore hlo j

/-- Settles O36: the checksum field is outside the region, so sealing again writes the same word. -/
theorem storeSealWritesChecksum : Obligations.StoreSealWritesChecksum := by
  unfold Obligations.StoreSealWritesChecksum
  refine ⟨formatNCommand (by decide) fun w hw => by simp only [decodeWord, opField_toNat, hw], fun s hinv =>
    ⟨_, exec_storeSeal s, rd8_sealStore hinv.store s.params, ?_⟩⟩
  obtain ⟨hlo, -⟩ := hinv.crcRegion
  rw [exec_storeSeal, sealStore_sealStore hinv.store hlo]

/-- EQ_INIT leaves a store that passes: the one it kept or the empty one. -/
theorem storeVerdict_after_eqInit {s t : State} (hinv : s.Inv) (h : exec .eqInit s = .next t) :
    storeVerdict t.params t.store = .none ∧ t.active = none ∧ t.bqs = zeroBqs := by
  obtain ⟨hlo, -⟩ := hinv.crcRegion
  by_cases hpass : storeVerdict s.params s.store = .none
  · rw [exec_eqInit_of_pass hpass] at h
    cases h
    exact ⟨hpass, rfl, rfl⟩
  · rw [exec_eqInit_of_fail rfl hpass] at h
    cases h
    exact ⟨storeVerdict_emptyStore hlo, rfl, rfl⟩

/-- Settles O37: both stores pass the three checks of R203. -/
theorem eqInitAcceptsEmptyAndSealedStores : Obligations.EqInitAcceptsEmptyAndSealedStores := by
  unfold Obligations.EqInitAcceptsEmptyAndSealedStores
  refine ⟨fun s t hinv ht => ?_, fun s t hinv hmagic hversion ht => ?_⟩
  · obtain ⟨hpass, hactive, hbqs⟩ := storeVerdict_after_eqInit hinv ht
    rw [exec_eqInit_of_pass hpass, ← hactive, ← hbqs]
  · rw [exec_storeSeal] at ht
    cases ht
    obtain ⟨hlo, -⟩ := hinv.crcRegion
    exact ⟨_, exec_eqInit_of_pass (storeVerdict_sealStore hinv.store hlo hmagic hversion), rfl, rfl, rfl⟩

/-! ## One changed byte -/

theorem bytes_split (m : Memory) (i a b : Nat) :
    m.bytes i (a + (b + 1)) = m.bytes i a ++ m.rd8 (i + a) :: m.bytes (i + a + 1) b := by
  unfold Memory.bytes
  rw [List.range_add, List.range_succ_eq_map]
  simp [Function.comp_def, Nat.add_assoc, Nat.add_comm 1]

/-- A changed byte of the checked region changes its checksum. -/
theorem regionCrc_wr8_ne {m : Memory} (h : m.wf) {p : Config.Params} {i : Nat} {v : Byte} (hi : i < 3816)
    (hlo : p.crcLo ≤ i) (hhi : i < p.crcHi) (hv : v ≠ m.rd8 i) : regionCrc p (m.wr8 i v) ≠ regionCrc p m := by
  have hread : ∀ j, (m.wr8 i v).rd8 j = if j = i then v else m.rd8 j := Memory.rd8_wr8 h hi v
  have hlen : p.crcHi - p.crcLo = (i - p.crcLo) + (p.crcHi - (i + 1) + 1) := by omega
  have hat : p.crcLo + (i - p.crcLo) = i := by omega
  have hpre : (m.wr8 i v).bytes p.crcLo (i - p.crcLo) = m.bytes p.crcLo (i - p.crcLo) :=
    Memory.bytes_congr fun j _ hj => (hread j).trans (if_neg (by omega))
  have hpost : (m.wr8 i v).bytes (i + 1) (p.crcHi - (i + 1)) = m.bytes (i + 1) (p.crcHi - (i + 1)) :=
    Memory.bytes_congr fun j hj _ => (hread j).trans (if_neg (by omega))
  rw [regionCrc, regionCrc, hlen, bytes_split, bytes_split, hat, hpre, hpost, hread, if_pos rfl]
  exact fun hsame => hv (crc32_injective_byte _ _ hsame)

/-- A store that passes fails the CRC check alone once a byte of its region, which holds no header byte, has changed. -/
theorem storeVerdict_wr8 {m : Memory} (h : m.wf) {p : Config.Params} {i : Nat} {v : Byte} (hi : i < 3816)
    (hp : 16 ≤ p.crcLo) (hlo : p.crcLo ≤ i) (hhi : i < p.crcHi) (hv : v ≠ m.rd8 i)
    (hpass : storeVerdict p m = .none) : storeVerdict p (m.wr8 i v) = .crc := by
  have hheader : ∀ j, j < 16 → (m.wr8 i v).rd8 j = m.rd8 j := fun j hj =>
    (Memory.rd8_wr8 h hi v j).trans (if_neg (by omega))
  have hword : ∀ k, k + 4 ≤ 16 → (m.wr8 i v).rd32 k = m.rd32 k := fun k hk =>
    Memory.rd32_congr fun j _ hj => hheader j (by omega)
  obtain ⟨hmagic, hversion, hcrc⟩ := storeVerdict_eq_none_iff.1 hpass
  refine storeVerdict_eq_crc_iff.2
    ⟨(hword 0 (by decide)).trans hmagic, (hheader 4 (by decide)).trans hversion, ?_⟩
  rw [hword 8 (by decide), hcrc]
  exact (regionCrc_wr8_ne h hi hlo hhi hv).symm

/-- Settles O38: the changed region has another checksum, and the header still says the old one. -/
theorem singleByteCorruptionCaught : Obligations.SingleByteCorruptionCaught := by
  unfold Obligations.SingleByteCorruptionCaught
  intro s i v hinv hpass hlo hhi hv
  obtain ⟨hp, hend⟩ := hinv.crcRegion
  have hverdict := storeVerdict_wr8 hinv.store (Nat.lt_of_lt_of_le hhi hend) hp hlo hhi hv hpass
  exact ⟨_, exec_eqInit_of_fail hverdict (by decide), rfl, rfl, rfl⟩

end Sys2Proof.Machine
end

section
/-! PROOFS. The pipeline state (43_audio_output.md R230): where each command leaves `STATE`, and that no other agent
step moves it (O8). -/

namespace Sys2Proof.Machine

open Sys2Proof

/-! ## The step on the next input -/

theorem step_of_next {s : State} {i : Input} (h : s.next i) : step s = agentStep i (nextInput s).2 := by
  unfold step
  rw [h]

/-- A command issued next runs, with the input used up and the write acknowledged (40_command.md R140). -/
theorem step_of_issues {s : State} {i : Instr} (h : s.issues i) :
    step s = exec i ((nextInput s).2.replied .ack) :=
  (step_of_next h).trans ((hostWrite_cmd _ _).trans (issue_ok (decodeWord_encode i) _))

/-! ## AO_TASK by the pipeline state (R243) -/

theorem exec_aoTask_stopped {s : State} (h : s.pipe = .stopped) : exec .aoTask s = .next s := by
  simp only [exec, execAoTask, h]

theorem exec_aoTask_prebuf {s : State} (h : s.pipe = .prebuf) : exec .aoTask s = .next (taskPrebuf s) := by
  simp only [exec, execAoTask, h]

theorem exec_aoTask_streaming {s : State} (h : s.pipe = .streaming) : exec .aoTask s = .next (taskStreaming s) := by
  simp only [exec, execAoTask, h]

/-! ## `STATE` after a command -/

/-- `STATE` after AO_TASK: only the prebuffer transition moves it (R243 to R245). -/
def pipeAfterTask (s : State) : PipeState :=
  if s.pipe = .prebuf ∧ s.params.prebufBytes ≤ s.avail then .streaming else s.pipe

theorem pipeAfterTask_of_ne {s : State} (h : s.pipe ≠ .prebuf) : pipeAfterTask s = s.pipe :=
  if_neg fun hs => h hs.1

theorem exec_aoTask_pipe {s t : State} (h : exec .aoTask s = .next t) : t.pipe = pipeAfterTask s := by
  cases hp : s.pipe with
  | stopped =>
    cases (exec_aoTask_stopped hp).symm.trans h
    exact (pipeAfterTask_of_ne (by simp [hp])).symm
  | prebuf =>
    cases (exec_aoTask_prebuf hp).symm.trans h
    unfold pipeAfterTask
    rcases taskPrebuf_eq s with ⟨hlow, e⟩ | ⟨hav, _, _, _, _, _, _, _, _, _, _, e⟩
    · rw [e, if_neg fun hs => absurd hs.2 (Nat.not_le.2 hlow)]
    · rw [e, if_pos ⟨hp, hav⟩]
  | streaming =>
    cases (exec_aoTask_streaming hp).symm.trans h
    obtain ⟨_, _, _, _, _, _, _, _, _, _, _, _, e⟩ := taskStreaming_eq s
    rw [e, pipeAfterTask_of_ne (by simp [hp])]

/-- `STATE` after a command (R230). -/
def pipeAfter : Instr → State → PipeState
  | .aoStart, _ => .prebuf
  | .aoStop, _ => .stopped
  | .aoTask, s => pipeAfterTask s
  | _, s => s.pipe

theorem bqProcessWork_pipe (s : State) (nfr : BitVec 12) (vs : BitVec 9) : (bqProcessWork s nfr vs).pipe = s.pipe := by
  obtain ⟨b, k, e⟩ := bqProcess_state s (s.work.take (2 * nfr.toNat)) vs.toNat
  exact (congrArg State.pipe e :)

theorem exec_pipe {i : Instr} {s t : State} (h : exec i s = .next t) : t.pipe = pipeAfter i s := by
  cases i with
  | aoTask => exact exec_aoTask_pipe h
  | bqProcess nfr vs =>
    cases h
    split
    · exact bqProcessWork_pipe s nfr vs
    · rfl
  | setActive id =>
    cases h
    split
    · split <;> rfl
    · rfl
  | profCommit id => cases h; split <;> rfl
  | profDelete id =>
    cases h
    split
    · exact (State.withActive_pipe _ _).trans (State.withStore_pipe _ _)
    · rfl
  | crcRun start len => cases h; split <;> rfl
  | _ => cases h; rfl

/-! ## `STATE` after a step -/

/-- A command that moves `STATE` is AO_START, AO_STOP, or AO_TASK at the threshold. -/
theorem pipeAfter_ne_cases {i : Instr} {s : State} (h : pipeAfter i s ≠ s.pipe) :
    i = .aoStart ∨ i = .aoStop ∨ (i = .aoTask ∧ s.pipe = .prebuf ∧ s.params.prebufBytes ≤ s.avail) := by
  cases i with
  | aoStart => exact .inl rfl
  | aoStop => exact .inr (.inl rfl)
  | aoTask => exact .inr (.inr ⟨rfl, not_imp_comm.1 (fun hs => if_neg hs) h⟩)
  | _ => exact absurd rfl h

/-- What an issued command leaves in `STATE`: taking the input and the bus reply does not bear on it. -/
theorem step_pipe_of_issues {s t : State} {i : Instr} (hi : s.issues i) (ht : step s = .next t) :
    t.pipe = pipeAfter i s := by
  obtain ⟨is, k, hu⟩ := nextInput_state s
  rw [step_of_issues hi, hu] at ht
  rw [exec_pipe ht]
  cases i <;> rfl

theorem step_pipe_of_reset {s t : State} (hr : s.next .reset) (ht : step s = .next t) : t.pipe = .stopped := by
  cases (step_reset hr).symm.trans ht
  rfl

/-- Settles O8: of all agent steps only commands and reset write `STATE`, and of the commands three move it. -/
theorem pipelineStateMachine : Obligations.PipelineStateMachine := by
  unfold Obligations.PipelineStateMachine
  refine ⟨fun s t ht hne => ?_, fun s t ht =>
    ⟨fun hi => step_pipe_of_issues hi ht, fun hi hp hav => ?_, fun hi => step_pipe_of_issues hi ht,
      fun hr => step_pipe_of_reset hr ht⟩⟩
  · obtain ⟨inputs, drawn, heff⟩ := stepEffect_of_step ht
    cases heff with
    | command hi _ =>
      have hpipe := step_pipe_of_issues hi ht
      rcases pipeAfter_ne_cases (hpipe ▸ hne) with rfl | rfl | ⟨rfl, hp, hav⟩
      · exact .inl ⟨hi, hpipe⟩
      · exact .inr (.inr (.inl ⟨hi, hpipe⟩))
      · exact .inr (.inl ⟨hi, hp, hav, hpipe.trans (if_pos ⟨hp, hav⟩)⟩)
    | dma _ =>
      obtain ⟨_, _, _, _, _, e, -⟩ := dmaStep_eq { s with inputs := inputs, drawn := drawn }
      exact absurd (congrArg State.pipe e) hne
    | src b =>
      obtain ⟨q, e⟩ := srcStep_eq { s with inputs := inputs, drawn := drawn } b
      exact absurd (congrArg State.pipe e) hne
    | reset hr => exact .inr (.inr (.inr ⟨hr, rfl⟩))
    | _ => exact absurd rfl hne
  · exact (step_pipe_of_issues hi ht).trans (if_pos ⟨hp, hav⟩)

end Sys2Proof.Machine
end

section
/-! PROOFS. The DMA and SRC agents (43_audio_output.md R247 to R251): what one step does (O58, O60), who adds to the
trace (O16), and a whole lap (O59). -/

namespace Sys2Proof.Machine

open Sys2Proof

/-! ## One DMA step -/

theorem or_decide_eq_ite (a : Bool) (P : Prop) [Decidable P] : (a || decide P) = if P then true else a := by
  split <;> simp [*]

theorem or_decide_of_true (a : Bool) {P : Prop} [Decidable P] (h : P) : (a || decide P) = true := by simp [h]

/-- The late check of R249 as one condition. -/
theorem startsLate_eq (s : State) : startsLate s =
    decide (s.dmaPos = (dmaHalf s).val * s.params.halfFrames ∧ s.pipe = .streaming ∧ s.nf (dmaHalf s) = true) := by
  simp [startsLate, Bool.and_assoc]

theorem dmaStep_of_run {s : State} (h : s.dmaRun = true) : dmaStep s = { s with
    late := s.late || startsLate s
    out := s.out ++ [currentFrame s]
    nf0 := s.nf0 || decide (s.dmaPos = s.params.halfFrames - 1)
    nf1 := s.nf1 || decide (s.dmaPos = 2 * s.params.halfFrames - 1)
    dmaPos := (s.dmaPos + 1) % (2 * s.params.halfFrames) } := if_pos h

/-- Settles O58: the DMA runs between commands, and each flag is kept or set. -/
theorem dmaStepEffect : Obligations.DmaStepEffect := by
  unfold Obligations.DmaStepEffect
  intro s hinv hdma
  obtain ⟨is, k, hu⟩ := nextInput_state s
  have hrun : (nextInput s).2.dmaRun = true := by rw [hu]; exact hinv.dmaRun
  rw [step_of_next hdma, agentStep, dmaStep_of_run hrun, startsLate_eq, or_decide_eq_ite, or_decide_eq_ite,
    or_decide_eq_ite, hu]
  rfl

/-- Settles O60: the byte is queued or dropped as the FIFO has room. -/
theorem srcStepQueuesOrDrops : Obligations.SrcStepQueuesOrDrops := by
  unfold Obligations.SrcStepQueuesOrDrops
  intro s b rest hin
  rw [step_of_inputs hin]
  exact ⟨fun hroom => congrArg Host.Outcome.next (if_pos hroom),
    fun hfull => congrArg Host.Outcome.next (if_neg (Nat.not_lt.2 hfull))⟩

/-! ## The trace -/

/-- Settles O16: a DMA step adds its frame, and no command and no other agent writes the trace. -/
theorem traceGrowsOnlyByDma : Obligations.TraceGrowsOnlyByDma := by
  unfold Obligations.TraceGrowsOnlyByDma
  intro s t hinv ht
  refine ⟨fun hdma => ?_, fun hreset => ?_, fun hdma hreset => ?_⟩
  · cases (dmaStepEffect s hinv hdma).symm.trans ht
    rfl
  · cases (step_reset hreset).symm.trans ht
    rfl
  · obtain ⟨inputs, drawn, heff⟩ := stepEffect_of_step ht
    cases heff with
    | command _ hexec => exact (exec_keeps hexec).out
    | dma hd => exact absurd hd hdma
    | src b =>
      obtain ⟨q, e⟩ := srcStep_eq { s with inputs := inputs, drawn := drawn } b
      exact (congrArg State.out e :)
    | reset hr => exact absurd hr hreset
    | _ => rfl

/-! ## A lap -/

/-- The list of inputs is `is`. -/
def State.withInputs (s : State) (is : List Input) : State := { s with inputs := is }

/-- The DMA does not look at the inputs. -/
theorem dmaStep_withInputs (s : State) (is : List Input) :
    dmaStep (s.withInputs is) = (dmaStep s).withInputs is := by
  by_cases h : s.dmaRun = true
  · rw [dmaStep_of_run h, dmaStep_of_run (s := s.withInputs is) h]
    rfl
  · rw [dmaStep, dmaStep, if_neg h, if_neg (show ¬ (s.withInputs is).dmaRun = true from h)]

theorem step_withInputs (s : State) (i : Input) (rest : List Input) :
    step (s.withInputs (i :: rest)) = agentStep i (s.withInputs rest) := rfl

theorem run_succ {s t : State} (h : step s = .next t) (k : Nat) : core.run (k + 1) s = core.run k t := by
  have hcore : core.step s = .next t := h
  simp only [Host.Core.run, hcore]

/-- A run over k listed DMA steps is k times the DMA's step. -/
theorem run_dma (k : Nat) (s : State) (rest : List Input) :
    core.run k (s.withInputs (List.replicate k .dma ++ rest)) = .next ((dmaStep^[k] s).withInputs rest) := by
  induction k generalizing s with
  | zero => rfl
  | succ k ih =>
    have hstep : step (s.withInputs (List.replicate (k + 1) .dma ++ rest)) =
        .next ((dmaStep s).withInputs (List.replicate k .dma ++ rest)) :=
      (step_withInputs s .dma _).trans (congrArg Host.Outcome.next (dmaStep_withInputs s _))
    exact (run_succ hstep k).trans (ih (dmaStep s))

/-- The element of `OUT` that the frame at position f gives (R251). -/
def State.frameAt (s : State) (f : Nat) : OutFrame :=
  ⟨s.buf.getD (2 * f) 0, s.buf.getD (2 * f + 1) 0, s.ampEn, s.outMute⟩

/-- What k DMA steps from frame 0 have done, within a lap. -/
theorem dmaStep_iterate {s : State} (hrun : s.dmaRun = true) (hpos : s.dmaPos = 0) {k : Nat}
    (hk : k ≤ 2 * s.params.halfFrames) (hhf : 0 < s.params.halfFrames) : ∃ late, dmaStep^[k] s = { s with
      late := late
      out := s.out ++ (List.range k).map s.frameAt
      nf0 := s.nf0 || decide (s.params.halfFrames ≤ k)
      nf1 := s.nf1 || decide (2 * s.params.halfFrames ≤ k)
      dmaPos := k % (2 * s.params.halfFrames) } := by
  induction k with
  | zero =>
    refine ⟨s.late, ?_⟩
    have h0 : decide (s.params.halfFrames ≤ 0) = false := decide_eq_false (by omega)
    have h1 : decide (2 * s.params.halfFrames ≤ 0) = false := decide_eq_false (by omega)
    rw [Function.iterate_zero_apply, h0, h1, Bool.or_false, Bool.or_false, List.range_zero, List.map_nil,
      List.append_nil, Nat.zero_mod, ← hpos]
  | succ k ih =>
    obtain ⟨late, e⟩ := ih (Nat.le_of_succ_le hk)
    have hmod : k % (2 * s.params.halfFrames) = k := Nat.mod_eq_of_lt hk
    have hrun' : (dmaStep^[k] s).dmaRun = true := by rw [e]; exact hrun
    have h0 : (decide (s.params.halfFrames ≤ k) || decide (k = s.params.halfFrames - 1)) =
        decide (s.params.halfFrames ≤ k + 1) := by
      rw [← Bool.decide_or]
      exact decide_eq_decide.2 (by omega)
    have h1 : (decide (2 * s.params.halfFrames ≤ k) || decide (k = 2 * s.params.halfFrames - 1)) =
        decide (2 * s.params.halfFrames ≤ k + 1) := by
      rw [← Bool.decide_or]
      exact decide_eq_decide.2 (by omega)
    rw [Function.iterate_succ_apply', dmaStep_of_run hrun', e, hmod, Bool.or_assoc, Bool.or_assoc, h0, h1,
      List.range_succ, List.map_append, ← List.append_assoc]
    exact ⟨_, rfl⟩

/-- Settles O59: 2 x `HALF_FRAMES` steps of the DMA from frame 0 are a lap. -/
theorem dmaLapPlaysBuffer : Obligations.DmaLapPlaysBuffer := by
  unfold Obligations.DmaLapPlaysBuffer
  intro s rest hinv hpos hin
  obtain ⟨late, e⟩ := dmaStep_iterate hinv.dmaRun hpos le_rfl hinv.params.1.1
  have hlist : s.withInputs (List.replicate (2 * s.params.halfFrames) .dma ++ rest) = s := by rw [← hin]; rfl
  have hlap := run_dma (2 * s.params.halfFrames) s rest
  rw [hlist] at hlap
  refine ⟨_, hlap, ?_⟩
  rw [e]
  exact ⟨rfl, or_decide_of_true s.nf0 (by omega), or_decide_of_true s.nf1 le_rfl, Nat.mod_self _, rfl, rfl, rfl⟩

end Sys2Proof.Machine
end

section
/-! PROOFS. Samples and the EQ of a fill: unpack, swap and pack (O49), and the engine that a fill runs (O50). -/

namespace Sys2Proof.Machine

open Sys2Proof

/-! ## Samples (43_audio_output.md R231, R232, R235) -/

/-- Sample i of a byte string: bytes 3i to 3i + 2, least significant first (R231). -/
def sampleBits (r : List Byte) (i : Nat) : BitVec 24 :=
  r.getD (3 * i + 2) 0 ++ r.getD (3 * i + 1) 0 ++ r.getD (3 * i) 0

theorem getD_unpack : ∀ {r : List Byte} {i : Nat}, 3 * i + 2 < r.length →
    (unpack r).getD i 0 = (sampleBits r i).signExtend 32
  | b0 :: b1 :: b2 :: rest, 0, _ => rfl
  | b0 :: b1 :: b2 :: rest, i + 1, h => getD_unpack (r := rest) (i := i) (by simp only [List.length_cons] at h; omega)
  | [], _, h => by simp at h
  | [_], _, h => by simp at h
  | [_, _], _, h => by simp at h

theorem sampleBits_toNat (r : List Byte) (i : Nat) : (sampleBits r i).toNat =
    (r.getD (3 * i) 0).toNat + 256 * (r.getD (3 * i + 1) 0).toNat + 65536 * (r.getD (3 * i + 2) 0).toNat := by
  have h0 := (r.getD (3 * i) 0).isLt
  have h1 := (r.getD (3 * i + 1) 0).isLt
  rw [sampleBits, BitVec.toNat_append, BitVec.toNat_append, ← Nat.shiftLeft_add_eq_or_of_lt h1,
    ← Nat.shiftLeft_add_eq_or_of_lt h0, Nat.shiftLeft_eq, Nat.shiftLeft_eq]
  omega

/-- An unpacked sample is the two's complement value of its 24 bits. -/
theorem toInt_signExtend_sample (v : BitVec 24) : (v.signExtend 32).toInt =
    if (v.toNat : Int) < 2 ^ 23 then (v.toNat : Int) else v.toNat - 2 ^ 24 := by
  rw [BitVec.toInt_signExtend_of_le (by decide), BitVec.toInt_eq_toNat_cond]
  split <;> split <;> omega

theorem getD_swapFrames : ∀ {words : List Word} {j : Nat}, 2 * j + 1 < words.length →
    (swapFrames words).getD (2 * j) 0 = words.getD (2 * j + 1) 0 ∧
      (swapFrames words).getD (2 * j + 1) 0 = words.getD (2 * j) 0
  | _ :: _ :: _, 0, _ => ⟨rfl, rfl⟩
  | _ :: _ :: rest, j + 1, h =>
    getD_swapFrames (words := rest) (j := j) (by simp only [List.length_cons] at h; omega)
  | [], _, h => by simp at h
  | [_], _, h => by simp at h

theorem pack_lj32_toInt {v : Word} (h : inSampleRange v) : (pack .lj32 v).toInt = v.toInt * 256 := by
  obtain ⟨hlo, hhi⟩ := h
  have hmul : pack .lj32 v = v * 256#32 := BitVec.shiftLeft_eq_mul_twoPow v 8
  rw [hmul, BitVec.toInt_mul, show (256#32 : Word).toInt = 256 from rfl]
  exact Int.bmod_eq_of_le (by omega) (by omega)

/-- Settles O49: bytes to samples, samples exchanged, samples to words. -/
theorem sampleFormats : Obligations.SampleFormats := by
  unfold Obligations.SampleFormats
  refine ⟨fun n r hr => ⟨length_unpack _ _ (by omega), fun i hi => ?_⟩, fun s n j hav hj => ?_, fun v hv =>
    ⟨rfl, pack_lj32_toInt hv, rfl, rfl⟩⟩
  · rw [getD_unpack (by omega), toInt_signExtend_sample, sampleBits_toNat]
    push_cast
    rfl
  · have hlen : (unpack (s.fifo.take (6 * n))).length = 2 * n :=
      length_unpack _ _ (by rw [List.length_take_of_le hav]; omega)
    by_cases hswap : s.swapLr = true
    · have hwords : sourceWords s n = swapFrames (unpack (s.fifo.take (6 * n))) := if_pos hswap
      rw [if_pos hswap, if_pos hswap, hwords]
      exact getD_swapFrames (by omega)
    · have hwords : sourceWords s n = unpack (s.fifo.take (6 * n)) := if_neg hswap
      rw [if_neg hswap, if_neg hswap, hwords]
      exact ⟨rfl, rfl⟩

/-! ## EQ dispatch (43_audio_output.md R233) -/

theorem eqDispatch_of_some {s : State} {p : Fin 10} (h : s.validActive = some p) (words : List Word) (vs : Nat) :
    eqDispatch s words vs = bqProcess s words vs := by
  unfold eqDispatch
  rw [h]

theorem eqDispatch_of_none {s : State} (h : s.validActive = none) (words : List Word) (vs : Nat) :
    eqDispatch s words vs = ({ s with leg := Config.legacyNext s.leg words vs }, (legacyEq s.leg words vs).2) := by
  unfold eqDispatch
  rw [h]
  rfl

/-- `bq_process` keeps `WORK`. -/
theorem bqProcess_keeps_work (s : State) (words : List Word) (vs : Nat) :
    (bqProcess s words vs).1.withWork s.work = (bqProcess s words vs).1 := by
  obtain ⟨b, k, e⟩ := bqProcess_state s words vs
  rw [e]
  rfl

theorem toNat_scale {vs : Nat} (h : vs ≤ 256) : (BitVec.ofNat 9 vs).toNat = vs :=
  (BitVec.toNat_ofNat _ _).trans (Nat.mod_eq_of_lt (by omega))

/-- BQ_PROCESS on a `WORK` that begins with n frames of samples runs `bq_process` on them (R162). -/
theorem exec_bqProcess_frames {s : State} {words : List Word} {n vs : Nat} (hinv : s.Inv) (hlen : words.length = 2 * n)
    (hn : n ≤ s.params.halfFrames) (hv : vs ≤ 256) (rest : List Word) :
    exec (.bqProcess (BitVec.ofNat 12 n) (BitVec.ofNat 9 vs)) (s.withWork (words ++ rest)) =
      .next ((bqProcess s words vs).1.withWork ((bqProcess s words vs).2 ++ rest)) := by
  have hframes := toNat_frames (hn.trans hinv.halfFrames_le)
  have hscale := toNat_scale hv
  have hexec := exec_bqProcess (s := s.withWork (words ++ rest)) (hframes.trans_le hn) (hscale.trans_le hv)
  rw [hexec, bqProcessWork_eq _ _ _ hframes, hscale, State.withWork_work, List.take_left' hlen, List.drop_left' hlen,
    bqProcess_withWork, State.withWork_withWork]

theorem getD_legacyEq (leg : Config.LegacyState) {words : List Word} (vs : Nat) {i : Nat} (h : i < words.length) :
    (legacyEq leg words vs).2.getD i 0 = (Config.legacySample leg words vs i).signExtend 32 := by
  simp [legacyEq, List.getD_eq_getElem?_getD, h]

/-- Settles O50: dispatch is by the validity of the active profile. -/
theorem fillEngineIsBqProcessOrLegacy : Obligations.FillEngineIsBqProcessOrLegacy := by
  unfold Obligations.FillEngineIsBqProcessOrLegacy
  intro s words n vs hinv hlen hn hv
  refine ⟨fun p hactive hname hcount => ?_, fun hempty => ?_⟩
  · have hva : s.validActive = some p := validActive_eq_some_iff.2 ⟨hactive, emptySlot_eq_false_iff.2 ⟨hname, hcount⟩⟩
    refine ⟨_, exec_bqProcess_frames hinv hlen hn hv _, ?_⟩
    rw [eqDispatch_of_some hva]
    exact ⟨(bqProcess_keeps_work s words vs).symm, (List.take_left' ((length_bqProcess s words vs).trans hlen)).symm⟩
  · have hva : s.validActive = none :=
      validActive_eq_none_iff.2 fun p hp => emptySlot_eq_true_iff.2 (hempty p hp)
    rw [eqDispatch_of_none hva]
    refine ⟨rfl, (length_legacyEq s.leg words vs).trans hlen, fun i hi => ?_⟩
    rw [getD_legacyEq s.leg vs (hlen ▸ hi)]
    exact ⟨rfl, inSampleRange_signExtend _⟩

end Sys2Proof.Machine
end

section
/-! PROOFS. The producer commands where they fill nothing: AO_START (O51), AO_STOP (O52) and the idle AO_TASK (O53). -/

namespace Sys2Proof.Machine

open Sys2Proof

/-- Settles O51: row 0x10 of the map is format N, and the command's writes are R241's. -/
theorem aoStartSilencesAndPrebuffers : Obligations.AoStartSilencesAndPrebuffers := by
  unfold Obligations.AoStartSilencesAndPrebuffers
  refine ⟨formatNCommand (by decide) fun w hw => ?_, fun s => rfl⟩
  simp only [decodeWord, opField_toNat, hw]

/-- Settles O52: row 0x11 of the map is format N; the mute pulse and the halt of R242 end within the command. -/
theorem aoStopRestartsAgainstSilence : Obligations.AoStopRestartsAgainstSilence := by
  unfold Obligations.AoStopRestartsAgainstSilence
  refine ⟨formatNCommand (by decide) fun w hw => ?_, fun s => rfl⟩
  simp only [decodeWord, opField_toNat, hw]

theorem serviceIfFlagged_of_clear {s : State} {h : Fin 2} (hf : s.nf h = false) : serviceIfFlagged s h = s :=
  if_neg (Bool.not_eq_true _ ▸ hf)

theorem serviceIfFlagged_of_set {s : State} {h : Fin 2} (hf : s.nf h = true) : serviceIfFlagged s h = service s h :=
  if_pos hf

/-- Settles O53: each state of the pipeline has a case in which the task leaves it as it is. -/
theorem aoTaskIdle : Obligations.AoTaskIdle := by
  unfold Obligations.AoTaskIdle
  refine ⟨formatNCommand (by decide) fun w hw => ?_, fun s hidle => ?_⟩
  · simp only [decodeWord, opField_toNat, hw]
  · rcases hidle with hp | ⟨hp, hlow⟩ | ⟨hp, h0, h1⟩
    · exact exec_aoTask_stopped hp
    · rw [exec_aoTask_prebuf hp, taskPrebuf, if_pos hlow]
    · rw [exec_aoTask_streaming hp, taskStreaming, serviceIfFlagged_of_clear (h := 0) h0,
        serviceIfFlagged_of_clear (h := 1) h1]

end Sys2Proof.Machine
end

section
/-! PROOFS. The words of a filled half (43_audio_output.md R236 to R239): processed frames first, then the held pair. -/

namespace Sys2Proof.Machine

open Sys2Proof

/-- The 2 x `HALF_FRAMES` words of a half: the n frames of `out` packed, then the held pair of `u`. -/
def halfOf (u : State) (n : Nat) (out : List Word) : List Word :=
  out.map (pack u.params.outPack) ++ heldFrames u (u.params.halfFrames - n)

theorem getD_heldFrames (u : State) {m j : Nat} (hj : j < m) :
    (heldFrames u m).getD (2 * j) 0 = pack u.params.outPack u.heldL ∧
      (heldFrames u m).getD (2 * j + 1) 0 = pack u.params.outPack u.heldR := by
  induction m generalizing j with
  | zero => exact absurd hj (Nat.not_lt_zero j)
  | succ m ih =>
    cases j with
    | zero => exact ⟨rfl, rfl⟩
    | succ j => exact ih (Nat.lt_of_succ_lt_succ hj)

theorem getD_map_pack (f : Config.OutPack) {out : List Word} {i : Nat} (hi : i < out.length) :
    (out.map (pack f)).getD i 0 = pack f (out.getD i 0) := by
  simp [List.getD_eq_getElem?_getD, hi]

section

variable {u : State} {n : Nat} {out : List Word} (hn : n ≤ u.params.halfFrames) (hout : out.length = 2 * n)
include hn hout

theorem length_halfOf : (halfOf u n out).length = 2 * u.params.halfFrames := by
  rw [halfOf, List.length_append, List.length_map, hout, length_heldFrames]
  omega

theorem getD_halfOf {j : Nat} (hj : j < u.params.halfFrames) :
    (halfOf u n out).getD (2 * j) 0 =
        pack u.params.outPack (if j < n then out.getD (2 * j) 0 else u.heldL) ∧
      (halfOf u n out).getD (2 * j + 1) 0 =
        pack u.params.outPack (if j < n then out.getD (2 * j + 1) 0 else u.heldR) := by
  have hlen : (out.map (pack u.params.outPack)).length = 2 * n := (List.length_map _).trans hout
  unfold halfOf
  by_cases hjn : j < n
  · rw [if_pos hjn, if_pos hjn, List.getD_append _ _ _ _ (by omega), List.getD_append _ _ _ _ (by omega),
      getD_map_pack _ (by omega), getD_map_pack _ (by omega)]
    exact ⟨rfl, rfl⟩
  · have hfirst : 2 * j - 2 * n = 2 * (j - n) := by omega
    have hsecond : 2 * j + 1 - 2 * n = 2 * (j - n) + 1 := by omega
    rw [if_neg hjn, if_neg hjn, List.getD_append_right _ _ _ _ (by omega), List.getD_append_right _ _ _ _ (by omega),
      hlen, hfirst, hsecond]
    exact getD_heldFrames u (by omega)

end

/-- The half written holds the words written; the other keeps its own (20_memory.md R95). -/
theorem halfWords_withHalf {u : State} (hbuf : u.buf.length = 4 * u.params.halfFrames) {half : List Word}
    (hhalf : half.length = 2 * u.params.halfFrames) (h : Fin 2) :
    (u.withHalf h half).halfWords h = half ∧ (u.withHalf h half).halfWords (h + 1) = u.halfWords (h + 1) := by
  have hlow : (u.buf.take (2 * u.params.halfFrames)).length = 2 * u.params.halfFrames :=
    List.length_take_of_le (by omega)
  fin_cases h
  · constructor
    · simp [State.halfWords, writeHalf, hhalf]
    · simp [State.halfWords, writeHalf, hhalf]
  · constructor
    · simp [State.halfWords, writeHalf, hlow, hhalf]
    · simp [State.halfWords, writeHalf, hlow]

/-- What the halves hold after a fill by n frames of `out` and the held pair. -/
theorem halfWords_filled {u : State} (hbuf : u.buf.length = 4 * u.params.halfFrames) {n : Nat} {out : List Word}
    (hn : n ≤ u.params.halfFrames) (hout : out.length = 2 * n) (h : Fin 2) :
    let t := u.withHalf h (halfOf u n out)
    t.halfWords (h + 1) = u.halfWords (h + 1) ∧ (t.halfWords h).length = 2 * u.params.halfFrames ∧
      ∀ j, j < u.params.halfFrames →
        (t.halfWords h).getD (2 * j) 0 = pack u.params.outPack (if j < n then out.getD (2 * j) 0 else u.heldL) ∧
          (t.halfWords h).getD (2 * j + 1) 0 =
            pack u.params.outPack (if j < n then out.getD (2 * j + 1) 0 else u.heldR) := by
  obtain ⟨hsame, hother⟩ := halfWords_withHalf hbuf (length_halfOf hn hout) h
  simp only [hsame, hother, true_and]
  exact ⟨length_halfOf hn hout, fun _ hj => getD_halfOf hn hout hj⟩

end Sys2Proof.Machine
end

section
/-! PROOFS. The fills as updates of the state (43_audio_output.md R236 to R239), in terms of one EQ run on the words
read. -/

namespace Sys2Proof.Machine

open Sys2Proof

/-! ## What the EQ looks at -/

/-- Two states that the EQ of a fill takes for the same. -/
structure SameEngine (s t : State) : Prop where
  store : s.store = t.store
  active : s.active = t.active
  params : s.params = t.params
  bqs : s.bqs = t.bqs
  frames : s.cascadeFrames = t.cascadeFrames
  leg : s.leg = t.leg

theorem SameEngine.refl (s : State) : SameEngine s s := ⟨rfl, rfl, rfl, rfl, rfl, rfl⟩

theorem eqDispatch_congr {s t : State} (h : SameEngine s t) (words : List Word) (vs : Nat) :
    eqDispatch t words vs = ({ t with
        bqs := (eqDispatch s words vs).1.bqs
        cascadeFrames := (eqDispatch s words vs).1.cascadeFrames
        leg := (eqDispatch s words vs).1.leg }, (eqDispatch s words vs).2) := by
  have hva := validActive_congr h.store h.active
  cases hp : s.validActive with
  | none => rw [eqDispatch_of_none hp, eqDispatch_of_none (hva ▸ hp), h.bqs, h.frames, h.leg]
  | some p =>
    rw [eqDispatch_of_some hp, eqDispatch_of_some (hva ▸ hp), bqProcess_some hp, bqProcess_some (hva ▸ hp), h.store,
      h.params, h.bqs, h.frames, h.leg]

/-! ## The fills -/

/-- The state after `read_process(n)` where the EQ gave `r` (R234, R236). -/
def afterRead (s : State) (n : Nat) (r : State × List Word) : State := { s with
  fifo := s.fifo.drop (6 * n)
  bqs := r.1.bqs
  cascadeFrames := r.1.cascadeFrames
  leg := r.1.leg
  heldL := r.2.getD (2 * n - 2) 0
  heldR := r.2.getD (2 * n - 1) 0 }

/-- The same with half h filled: the n frames, then the held pair (R237, R238). -/
def filled (s : State) (h : Fin 2) (n : Nat) (r : State × List Word) : State :=
  (afterRead s n r).withHalf h (halfOf (afterRead s n r) n r.2)

section

variable {s₀ s : State} (hs : SameEngine s₀ s)
include hs

theorem readProcess_eq (n : Nat) : readProcess s n =
    (afterRead s n (eqDispatch s₀ (sourceWords s n) s.volScale), (eqDispatch s₀ (sourceWords s n) s.volScale).2) := by
  have hread := eqDispatch_congr (t := { s with fifo := s.fifo.drop (Config.frameBytes * n) })
    { hs with store := hs.store } (sourceWords s n) s.volScale
  unfold readProcess
  rw [hread]
  rfl

theorem fullFill_eq_filled (h : Fin 2) : fullFill s h =
    { filled s h s.params.halfFrames (eqDispatch s₀ (sourceWords s s.params.halfFrames) s.volScale) with
      fullCnt := s.fullCnt + 1, lastFill := .full } := by
  unfold fullFill filled halfOf
  rw [readProcess_eq hs, show (afterRead s _ _).params.halfFrames - s.params.halfFrames = 0 from Nat.sub_self _]
  simp only [heldFrames, List.replicate_zero, List.flatten_nil, List.append_nil]
  rfl

theorem partialFill_eq_filled (h : Fin 2) : partialFill s h =
    { filled s h (s.avail / 6) (eqDispatch s₀ (sourceWords s (s.avail / 6)) s.volScale) with
      partCnt := s.partCnt + 1, lastFill := .part } := by
  unfold partialFill
  simp only [readProcess_eq hs]
  rfl

end

theorem holdFill_eq_filled (s : State) (h : Fin 2) : holdFill s h =
    { s.withHalf h (halfOf s 0 []) with holdCnt := s.holdCnt + 1, lastFill := .hold } := rfl

/-! The kind of fill by the data there is (R240, R253). -/

theorem fillHalf_of_full {s : State} (hav : s.params.halfBytes ≤ s.avail) (h : Fin 2) :
    fillHalf s h = fullFill s h := if_pos hav

theorem fillHalf_of_part {s : State} (hlo : 6 ≤ s.avail) (hhi : s.avail < s.params.halfBytes) (h : Fin 2) :
    fillHalf s h = partialFill s h := (if_neg (Nat.not_le.2 hhi)).trans (if_pos hlo)

theorem fillHalf_of_hold {s : State} (hlo : s.avail < 6) (hhi : s.avail < s.params.halfBytes) (h : Fin 2) :
    fillHalf s h = holdFill s h := (if_neg (Nat.not_le.2 hhi)).trans (if_neg (Nat.not_le.2 hlo))

end Sys2Proof.Machine
end

section
/-! PROOFS. AO_TASK in STREAMING (43_audio_output.md R240, R245), by the flags: both halves in order (O56), and one half
(O55). A fill does not look at the flags, so servicing half 0 and half 1 are two fills and a clear of the flags. -/

namespace Sys2Proof.Machine

open Sys2Proof

/-- Volume latched and half h filled (R240). -/
def latchedFill (s : State) (h : Fin 2) : State := fillHalf s.latchVolume h

/-! ## What the fills do not look at -/

/-- `STATE`, `AMP_EN` and the needs-fill flags set. -/
def State.withStatus (s : State) (p : PipeState) (amp nf0 nf1 : Bool) : State :=
  { s with pipe := p, ampEn := amp, nf0 := nf0, nf1 := nf1 }

section

variable (s : State) (h : Fin 2) (p : PipeState) (amp nf0 nf1 : Bool)

theorem sameEngine_withStatus : SameEngine s (s.withStatus p amp nf0 nf1) := ⟨rfl, rfl, rfl, rfl, rfl, rfl⟩

theorem fillHalf_withStatus : fillHalf (s.withStatus p amp nf0 nf1) h = (fillHalf s h).withStatus p amp nf0 nf1 := by
  have hsame := sameEngine_withStatus s p amp nf0 nf1
  rcases Nat.lt_or_ge s.avail s.params.halfBytes with hlt | hfull
  · rcases Nat.lt_or_ge s.avail 6 with hhold | hpart
    · rw [fillHalf_of_hold hhold hlt, fillHalf_of_hold (s := s.withStatus p amp nf0 nf1) hhold hlt]
      rfl
    · rw [fillHalf_of_part hpart hlt, fillHalf_of_part (s := s.withStatus p amp nf0 nf1) hpart hlt,
        partialFill_eq_filled hsame, partialFill_eq_filled (.refl s)]
      rfl
  · rw [fillHalf_of_full hfull, fillHalf_of_full (s := s.withStatus p amp nf0 nf1) hfull, fullFill_eq_filled hsame,
      fullFill_eq_filled (.refl s)]
    rfl

theorem service_withStatus : service (s.withStatus p amp nf0 nf1) h =
    ((latchedFill s h).withStatus p amp nf0 nf1).setNf h false :=
  congrArg (State.setNf · h false) (fillHalf_withStatus s.latchVolume h p amp nf0 nf1)

/-! ## The task, by the flags -/

theorem exec_aoTask_first : exec .aoTask (s.withStatus .streaming amp true false) =
    .next ((latchedFill s 0).withStatus .streaming amp false false) := by
  rw [exec_aoTask_streaming rfl, taskStreaming, serviceIfFlagged_of_set (h := 0) rfl, service_withStatus]
  exact congrArg Host.Outcome.next (serviceIfFlagged_of_clear rfl)

theorem exec_aoTask_second : exec .aoTask (s.withStatus .streaming amp false true) =
    .next ((latchedFill s 1).withStatus .streaming amp false false) := by
  rw [exec_aoTask_streaming rfl, taskStreaming, serviceIfFlagged_of_clear (h := 0) rfl,
    serviceIfFlagged_of_set (h := 1) rfl, service_withStatus]
  rfl

theorem exec_aoTask_both : exec .aoTask (s.withStatus .streaming amp true true) =
    .next ((latchedFill (latchedFill s 0) 1).withStatus .streaming amp false false) := by
  have hfirst : service (s.withStatus .streaming amp true true) 0 =
      (latchedFill s 0).withStatus .streaming amp false true := service_withStatus s 0 .streaming amp true true
  rw [exec_aoTask_streaming rfl, taskStreaming, serviceIfFlagged_of_set (h := 0) rfl, hfirst,
    serviceIfFlagged_of_set (h := 1) rfl, service_withStatus]
  rfl

end

theorem eq_withStatus {s : State} {p : PipeState} {a b : Bool} (hp : s.pipe = p) (h0 : s.nf0 = a) (h1 : s.nf1 = b) :
    s = s.withStatus p s.ampEn a b := by
  subst hp h0 h1
  rfl

/-- Settles O56: the fill of half 0 leaves flag 1 alone, and the fill of half 1 does not look at the flags. -/
theorem aoTaskServicesHalvesInOrder : Obligations.AoTaskServicesHalvesInOrder := by
  unfold Obligations.AoTaskServicesHalvesInOrder
  intro s hp h0 h1
  have hboth : s = s.withStatus .streaming s.ampEn true true := eq_withStatus hp h0 h1
  have hfirst : ({ s with nf1 := false } : State) = s.withStatus .streaming s.ampEn true false :=
    eq_withStatus (s := { s with nf1 := false }) hp h0 rfl
  refine ⟨_, _, hfirst ▸ exec_aoTask_first s s.ampEn, exec_aoTask_second (latchedFill s 0) s.ampEn, ?_⟩
  exact (congrArg (exec .aoTask) hboth).trans (exec_aoTask_both s s.ampEn)

/-! ## Servicing one half (R240) -/

theorem exec_aoTask_of_one {s : State} {h : Fin 2} (hp : s.pipe = .streaming) (hset : s.nf h = true)
    (hclear : s.nf (h + 1) = false) :
    exec .aoTask s = .next ((latchedFill s h).withStatus .streaming s.ampEn false false) := by
  fin_cases h
  · exact (congrArg (exec .aoTask) (eq_withStatus hp hset hclear)).trans (exec_aoTask_first s _)
  · exact (congrArg (exec .aoTask) (eq_withStatus hp hclear hset)).trans (exec_aoTask_second s _)

theorem sameEngine_latchVolume (s : State) : SameEngine s s.latchVolume := ⟨rfl, rfl, rfl, rfl, rfl, rfl⟩

section

variable {s : State} (h : Fin 2)

theorem latchedFill_full (hav : s.params.halfBytes ≤ s.avail) {n : Nat} (hn : n = s.params.halfFrames) :
    latchedFill s h = { filled s.latchVolume h n (eqDispatch s (sourceWords s n) s.volscale) with
      fullCnt := s.fullCnt + 1, lastFill := .full } := by
  subst hn
  exact (fillHalf_of_full (s := s.latchVolume) hav h).trans (fullFill_eq_filled (sameEngine_latchVolume s) h)

theorem latchedFill_part (hlo : 6 ≤ s.avail) (hhi : s.avail < s.params.halfBytes) {n : Nat} (hn : n = s.avail / 6) :
    latchedFill s h = { filled s.latchVolume h n (eqDispatch s (sourceWords s n) s.volscale) with
      partCnt := s.partCnt + 1, lastFill := .part } := by
  subst hn
  exact (fillHalf_of_part (s := s.latchVolume) hlo hhi h).trans (partialFill_eq_filled (sameEngine_latchVolume s) h)

theorem latchedFill_hold (hlo : s.avail < 6) (hhi : s.avail < s.params.halfBytes) : latchedFill s h =
    { s.latchVolume.withHalf h (halfOf s.latchVolume 0 []) with holdCnt := s.holdCnt + 1, lastFill := .hold } :=
  (fillHalf_of_hold (s := s.latchVolume) hlo hhi h).trans (holdFill_eq_filled s.latchVolume h)

end

/-- Settles O55: by the data there is, the fill is full, partial or a hold. -/
theorem aoTaskServicesFlaggedHalf : Obligations.AoTaskServicesFlaggedHalf := by
  unfold Obligations.AoTaskServicesFlaggedHalf
  intro s h hinv hp hset hclear n r
  obtain ⟨hhf, -⟩ := hinv.params.1
  have hhalf : s.params.halfBytes = 6 * s.params.halfFrames := rfl
  have hread : 6 * n ≤ s.avail ∧ n ≤ s.params.halfFrames := by
    simp only [n]
    split <;> omega
  have hout : r.2.length = 2 * n := (length_eqDispatch _ _ _).trans (length_sourceWords hread.1)
  refine ⟨_, exec_aoTask_of_one hp hset hclear, ?_⟩
  rcases Nat.lt_or_ge s.avail s.params.halfBytes with hlt | hfull
  · have hn : n = s.avail / 6 := if_neg (Nat.not_le.2 hlt)
    rcases Nat.lt_or_ge s.avail 6 with hhold | hpart
    · have hn0 : n = 0 := by omega
      have hempty : r.2 = [] := List.length_eq_zero_iff.1 (by omega)
      obtain ⟨hother, hlen, hwords⟩ :=
        halfWords_filled (u := s.latchVolume) hinv.buf (Nat.zero_le _) (out := []) rfl h
      rw [latchedFill_hold h hhold hlt, hp, hn0, hempty]
      exact ⟨rfl, hother, fun hfull => absurd hlt (Nat.not_lt.2 hfull), fun hpart => absurd hhold (Nat.not_lt.2 hpart),
        fun hpart => absurd hhold (Nat.not_lt.2 hpart), fun _ => ⟨rfl, rfl, rfl, rfl, rfl, rfl, rfl, rfl⟩, hlen,
        hwords⟩
    · obtain ⟨hother, hlen, hwords⟩ := halfWords_filled (u := afterRead s.latchVolume n r) hinv.buf hread.2 hout h
      rw [latchedFill_part h hpart hlt hn, hp]
      exact ⟨rfl, hother, fun hfull => absurd hlt (Nat.not_lt.2 hfull), fun _ _ => ⟨rfl, rfl, rfl, rfl⟩,
        fun _ => ⟨rfl, rfl, rfl, rfl⟩, fun hhold => absurd hhold (Nat.not_lt.2 hpart), hlen, hwords⟩
  · have hn : n = s.params.halfFrames := if_pos hfull
    obtain ⟨hother, hlen, hwords⟩ := halfWords_filled (u := afterRead s.latchVolume n r) hinv.buf hread.2 hout h
    rw [latchedFill_full h hfull hn, hp]
    exact ⟨rfl, hother, fun _ => ⟨rfl, rfl, rfl, rfl⟩, fun _ hlt => absurd hfull (Nat.not_le.2 hlt),
      fun _ => ⟨rfl, rfl, rfl, rfl⟩, fun hhold => by omega, hlen, hwords⟩

end Sys2Proof.Machine
end

section
/-! PROOFS. The prebuffer transition (43_audio_output.md R244): its fills are those of AO_TASK in STREAMING on the same
data (O54). -/

namespace Sys2Proof.Machine

open Sys2Proof

/-! ## A full fill as a change of the state (R237) -/

section

variable {s : State} (hav : s.params.halfBytes ≤ s.avail) (h : Fin 2)
include hav

/-- The state a full fill leaves, but for the fields that the EQ and the words written decide. -/
theorem latchedFill_frame : latchedFill s h = { s with
    buf := (latchedFill s h).buf
    bqs := (latchedFill s h).bqs
    cascadeFrames := (latchedFill s h).cascadeFrames
    leg := (latchedFill s h).leg
    heldL := (latchedFill s h).heldL
    heldR := (latchedFill s h).heldR
    volScale := s.volscale
    fifo := s.fifo.drop s.params.halfBytes
    fullCnt := s.fullCnt + 1
    lastFill := .full } := by
  rw [latchedFill_full h hav rfl]
  rfl

theorem latchedFill_params : (latchedFill s h).params = s.params :=
  (congrArg State.params (latchedFill_frame hav h) :)

theorem latchedFill_avail : (latchedFill s h).avail = s.avail - s.params.halfBytes :=
  (congrArg State.avail (latchedFill_frame hav h)).trans List.length_drop

theorem latchedFill_other_half (hinv : s.Inv) : (latchedFill s h).halfWords (h + 1) = s.halfWords (h + 1) := by
  have hout := (length_eqDispatch s (sourceWords s s.params.halfFrames) s.volscale).trans (length_sourceWords hav)
  rw [latchedFill_full h hav rfl]
  exact (halfWords_filled (u := afterRead s.latchVolume _ _) hinv.buf le_rfl hout h).1

/-- A fill of the prebuffer loop is the one that AO_TASK makes of a flagged half with a half's data. -/
theorem prebufFill_eq_latchedFill : prebufFill s h = latchedFill s h :=
  (fillHalf_of_full (s := s.latchVolume) hav h).symm

end

/-- Of two halves' data a full fill leaves a half's. -/
theorem halfBytes_le_avail_latchedFill {s : State} (hav : 2 * s.params.halfBytes ≤ s.avail) (h : Fin 2) :
    (latchedFill s h).params.halfBytes ≤ (latchedFill s h).avail := by
  have hfirst : s.params.halfBytes ≤ s.avail := by omega
  rw [latchedFill_params hfirst, latchedFill_avail hfirst]
  omega

/-- Two full fills, one after the other. -/
theorem latchedFill_twice_frame {s t : State} (hav : 2 * s.params.halfBytes ≤ s.avail)
    (ht : t = latchedFill (latchedFill s 0) 1) : t = { s with
      buf := t.buf
      bqs := t.bqs
      cascadeFrames := t.cascadeFrames
      leg := t.leg
      heldL := t.heldL
      heldR := t.heldR
      volScale := s.volscale
      fifo := s.fifo.drop (2 * s.params.halfBytes)
      fullCnt := s.fullCnt + 2
      lastFill := .full } := by
  have hav0 : s.params.halfBytes ≤ s.avail := by omega
  have hfirst := latchedFill_frame hav0 0
  have hsecond := latchedFill_frame (halfBytes_le_avail_latchedFill hav 0) 1
  have hfifo : s.fifo.drop (2 * s.params.halfBytes) = (s.fifo.drop s.params.halfBytes).drop s.params.halfBytes := by
    rw [List.drop_drop, Nat.two_mul]
  have hcount : s.fullCnt + 2 = s.fullCnt + 1 + 1 := (BitVec.add_assoc s.fullCnt 1 1).symm
  rw [← ht] at hsecond
  rw [hfifo, hcount]
  generalize latchedFill s 0 = u at hfirst hsecond
  refine hsecond.trans ?_
  rw [hfirst]
  rfl

/-! ## The transition -/

/-- With less than two halves of data the loop stops after half 0. -/
theorem prebufFills_one {s : State} (hav : s.params.halfBytes ≤ s.avail) (hlt : s.avail < 2 * s.params.halfBytes) :
    prebufFills s = latchedFill s 0 := by
  have hstop : ¬ (latchedFill s 0).params.halfBytes ≤ (latchedFill s 0).avail := by
    rw [latchedFill_params hav, latchedFill_avail hav]
    omega
  rw [prebufFills, if_pos hav, prebufFill_eq_latchedFill hav, if_neg hstop]

theorem prebufFills_two {s : State} (hav : 2 * s.params.halfBytes ≤ s.avail) :
    prebufFills s = latchedFill (latchedFill s 0) 1 := by
  have hfirst : s.params.halfBytes ≤ s.avail := by omega
  have hsecond := halfBytes_le_avail_latchedFill hav 0
  rw [prebufFills, if_pos hfirst, prebufFill_eq_latchedFill hfirst, if_pos hsecond, prebufFill_eq_latchedFill hsecond]

/-- At the threshold the DMA restarts at frame 0 with no half flagged, and streaming begins (R244, R246). -/
theorem exec_aoTask_start {s : State} (hp : s.pipe = .prebuf) (hav : s.params.prebufBytes ≤ s.avail) :
    exec .aoTask s =
      .next { (prebufFills s).withStatus .streaming true false false with dmaPos := 0, dmaRun := true } := by
  rw [exec_aoTask_prebuf hp, taskPrebuf, if_neg (Nat.not_lt.2 hav)]
  rfl

/-- Settles O54: one or two of the fills of AO_TASK in STREAMING, then the restart. -/
theorem aoTaskPrebufferTransition : Obligations.AoTaskPrebufferTransition := by
  unfold Obligations.AoTaskPrebufferTransition
  intro s hinv hp hthreshold n flagged
  obtain ⟨-, ⟨hle, -⟩, -⟩ := hinv.params
  have hav : s.params.halfBytes ≤ s.avail := hle.trans hthreshold
  refine ⟨{ hinv with amp := rfl }, ?_⟩
  rcases Nat.lt_or_ge s.avail (2 * s.params.halfBytes) with hlt | htwo
  · have hn : n = 1 := if_neg (Nat.not_le.2 hlt)
    have hflagged : flagged = s.withStatus .streaming true true false := by
      simp only [flagged, hn]
      rfl
    refine ⟨(latchedFill s 0).withStatus .streaming true false false, hflagged ▸ exec_aoTask_first s true, ?_, ?_,
      fun _ => latchedFill_other_half hav 0 hinv⟩
    · rw [exec_aoTask_start hp hthreshold, prebufFills_one hav hlt]
      rfl
    · rw [hn, Nat.one_mul]
      exact congrArg (State.withStatus · .streaming true false false) (latchedFill_frame hav 0)
  · have hn : n = 2 := if_pos htwo
    have hflagged : flagged = s.withStatus .streaming true true true := by
      simp only [flagged, hn]
      rfl
    refine ⟨(latchedFill (latchedFill s 0) 1).withStatus .streaming true false false,
      hflagged ▸ exec_aoTask_both s true, ?_, ?_, fun h1 => absurd (hn.symm.trans h1) (by decide)⟩
    · rw [exec_aoTask_start hp hthreshold, prebufFills_two htwo]
      rfl
    · rw [hn]
      exact congrArg (State.withStatus · .streaming true false false) (latchedFill_twice_frame htwo rfl)

end Sys2Proof.Machine
end

section
/-! PROOFS. The volume scale (44_volume.md R290 to R296): its three factors, when it is unity, and VOL_COMPUTE. -/

namespace Sys2Proof.Machine

open Sys2Proof

/-! ## The factors -/

/-- `HOST_VOL` lies in the table (R39), so `V` is its entry and never the model's default (log 13). -/
theorem getElem?_volCurve {s : State} (h : s.Inv) :
    s.params.volCurve[(s.hostVol - s.params.volDbMin).toNat]? = some (hostCurve s.params s.hostVol) := by
  obtain ⟨-, -, -, -, -, hlength, -⟩ := h.params
  obtain ⟨hmin, hmax⟩ := h.hostVol
  have hk : (s.hostVol - s.params.volDbMin).toNat < s.params.volCurve.length := by omega
  rw [hostCurve, List.getD_eq_getElem _ _ hk, List.getElem?_eq_getElem hk]

/-- The headroom is 0..256 for each tier (R292). -/
theorem headroomOf_le {s : State} (h : s.Inv) (t : Fin 3) : headroomOf s.params t ≤ 256 := by
  obtain ⟨-, -, -, -, -, -, -, hroom, -⟩ := h.params
  exact hroom t

theorem localCurve_mono {a b : Nat} (h : a ≤ b) : localCurve a ≤ localCurve b :=
  Nat.div_le_div_right (Nat.mul_le_mul_right 256 (Nat.mul_le_mul h h))

/-- 6 is the last setting whose square, times 256, is below 10000 (R293). -/
theorem localCurve_eq_zero_iff {a : Nat} : localCurve a = 0 ↔ a ≤ 6 := by
  refine ⟨fun h => ?_, fun h => ?_⟩
  · by_contra hlt
    have hseven : localCurve 7 ≤ localCurve a := localCurve_mono (by omega)
    rw [h] at hseven
    exact absurd hseven (by decide)
  · exact Nat.le_zero.1 (localCurve_mono h)

/-! ## The scale -/

/-- A product of two factors of at most 256, shifted right by 8, is 256 only where both are. -/
theorem mul_div_256_eq_iff {a b : Nat} (ha : a ≤ 256) (hb : b ≤ 256) :
    a * b / 256 = 256 ↔ a = 256 ∧ b = 256 := by
  refine ⟨fun h => ?_, fun ⟨ha, hb⟩ => by rw [ha, hb]⟩
  have hleft : a * b ≤ a * 256 := Nat.mul_le_mul_left a hb
  have hright : a * b ≤ 256 * b := Nat.mul_le_mul_right b ha
  omega

theorem scaleProduct_eq_256_iff {v h l : Nat} (hv : v ≤ 256) (hh : h ≤ 256) (hl : l ≤ 256) :
    scaleProduct v h l = 256 ↔ v = 256 ∧ h = 256 ∧ l = 256 := by
  rw [scaleProduct, mul_div_256_eq_iff (mul_div_256_le hv hh) hl, mul_div_256_eq_iff hv hh, and_assoc]

theorem volscale_of_mute {s : State} (h : s.hostMute = true ∨ s.localMute = true) : s.volscale = 0 :=
  if_pos (Bool.or_eq_true _ _ ▸ h)

theorem volscale_of_unmuted {s : State} (h : ¬ (s.hostMute = true ∨ s.localMute = true)) :
    s.volscale =
      scaleProduct (hostCurve s.params s.hostVol) (headroomOf s.params s.pwrTier) (localCurve s.localAtt) :=
  if_neg (Bool.or_eq_true _ _ ▸ h)

/-- The scale is unity only without a mute and with all three factors unity (R294). -/
theorem volscale_eq_256_iff {s : State} (h : s.Inv) :
    s.volscale = 256 ↔ s.hostMute = false ∧ s.localMute = false ∧ hostCurve s.params s.hostVol = 256 ∧
      headroomOf s.params s.pwrTier = 256 ∧ localCurve s.localAtt = 256 := by
  obtain ⟨-, -, -, -, -, -, hcurve, -⟩ := h.params
  by_cases hm : s.hostMute = true ∨ s.localMute = true
  · rw [volscale_of_mute hm]
    refine iff_of_false (by decide) fun ⟨hhost, hlocal, _⟩ => ?_
    simp [hhost, hlocal] at hm
  · obtain ⟨hhost, hlocal⟩ := not_or.1 hm
    rw [volscale_of_unmuted hm,
      scaleProduct_eq_256_iff (hostCurve_le hcurve _) (headroomOf_le h _) (localCurve_le h.localAtt)]
    simp [Bool.eq_false_of_not_eq_true hhost, Bool.eq_false_of_not_eq_true hlocal]

/-- Settles O40: the quadratic is monotone, and a product shifted by 8 reaches 256 only from two factors of 256. -/
theorem volumeCurvesAndBounds : Obligations.VolumeCurvesAndBounds := by
  unfold Obligations.VolumeCurvesAndBounds
  exact ⟨⟨fun _ => rfl, rfl, rfl, fun _ _ => localCurve_mono, fun _ => localCurve_eq_zero_iff,
    fun _ => localCurve_le⟩, fun s h => ⟨volscale_le h, volscale_eq_256_iff h⟩⟩

/-! ## VOL_COMPUTE -/

/-- The scale with R294's right shifts for the divisions. -/
theorem volscale_eq_shifts (s : State) :
    s.volscale = if s.hostMute = true ∨ s.localMute = true then 0
      else ((hostCurve s.params s.hostVol * s.params.headroom.get s.pwrTier) >>> 8 *
        (s.localAtt * s.localAtt * 256 / 10000)) >>> 8 := by
  split
  case isTrue hm => exact volscale_of_mute hm
  case isFalse hm =>
    rw [volscale_of_unmuted hm, Nat.shiftRight_eq_div_pow, Nat.shiftRight_eq_div_pow]
    rfl

/-- Settles O39: row 0x20 of the map is format N; the command latches the scale, whose host factor is the table's. -/
theorem volComputeLatchesScale : Obligations.VolComputeLatchesScale := by
  unfold Obligations.VolComputeLatchesScale
  refine ⟨formatNCommand (by decide) fun w hw => by simp only [decodeWord, opField_toNat, hw],
    fun s h => ⟨hostCurve s.params s.hostVol, getElem?_volCurve h, ?_⟩⟩
  rw [← volscale_eq_shifts]
  rfl

end Sys2Proof.Machine
end

section
/-! PROOFS. Exceptions (60_exceptions.md): what sets `LATE` (R313; O12), which accesses raise `BusFault` (R311; O18), and
the interrupt level (R316; O57). -/

namespace Sys2Proof.Machine

open Sys2Proof

/-! ## `LATE` (R313) -/

/-- The first frame of a half lies in that half: `HALF_FRAMES` is not 0. -/
theorem dmaHalf_of_first_frame {s : State} (hhf : 0 < s.params.halfFrames) {h : Fin 2}
    (hpos : s.dmaPos = h.val * s.params.halfFrames) : dmaHalf s = h := by
  unfold dmaHalf
  match h with
  | 0 => exact if_pos (by simpa [hpos] using hhf)
  | 1 => exact if_neg (by simp [hpos])

/-- The late check with the half named rather than computed. -/
theorem startsLate_iff {s : State} (hhf : 0 < s.params.halfFrames) : startsLate s = true ↔
    s.pipe = .streaming ∧ ∃ h : Fin 2, s.dmaPos = h.val * s.params.halfFrames ∧ s.nf h = true := by
  rw [startsLate_eq, decide_eq_true_iff]
  constructor
  · exact fun ⟨hpos, hpipe, hnf⟩ => ⟨hpipe, _, hpos, hnf⟩
  · rintro ⟨hpipe, h, hpos, hnf⟩
    obtain rfl := dmaHalf_of_first_frame hhf hpos
    exact ⟨hpos, hpipe, hnf⟩

/-- No step but a DMA step sets `LATE`. -/
theorem late_of_step_not_dma {s t : State} (ht : step s = .next t) (hlate : s.late = false) (hdma : ¬ s.next .dma) :
    t.late = false := by
  obtain ⟨inputs, drawn, heff⟩ := stepEffect_of_step ht
  cases heff with
  | command _ hexec => exact (exec_keeps hexec).late.trans hlate
  | status _ => simp [State.writeStatus, hlate]
  | dma hd => exact absurd hd hdma
  | src b =>
    obtain ⟨q, e⟩ := srcStep_eq { s with inputs := inputs, drawn := drawn } b
    exact (congrArg State.late e).trans hlate
  | reset _ => rfl
  | _ => exact hlate

/-- A DMA step with `LATE` clear sets it exactly where the late check says so. -/
theorem late_of_step_dma {s t : State} (hinv : s.Inv) (ht : step s = .next t) (hlate : s.late = false)
    (hdma : s.next .dma) : t.late = startsLate s := by
  cases (dmaStepEffect s hinv hdma).symm.trans ht
  rw [startsLate_eq, ← Bool.false_or (decide _), or_decide_eq_ite, ← hlate]
  rfl

/-- Settles O12: of all agent steps only the DMA's can set `LATE`, and it does so by R249's check. -/
theorem lateSetExactlyByDma : Obligations.LateSetExactlyByDma := by
  unfold Obligations.LateSetExactlyByDma
  intro s t hinv ht hlate
  by_cases hdma : s.next .dma
  · rw [late_of_step_dma hinv ht hlate hdma, startsLate_iff hinv.params.1.1]
    exact ⟨fun hstart => ⟨hdma, hstart⟩, And.right⟩
  · rw [late_of_step_not_dma ht hlate hdma]
    exact iff_of_false Bool.false_ne_true fun hcause => hdma hcause.1

/-! ## `BusFault` (R311) -/

theorem bytes_lt_four_iff {size : AccessSize} : size.bytes < 4 ↔ size ≠ .word := by
  cases size <;> simp [AccessSize.bytes]

theorem narrow_of_wordOnly_fault {size : AccessSize} {t : Target} (h : wordOnly size t = .fault) (ht : t ≠ .fault) :
    size ≠ .word := by
  rintro rfl
  exact ht (wordOnly_word t ▸ h)

/-- The accesses that fault are the misaligned ones, and the narrow ones to register space, `BUF`, `WORK` and `BQS`. -/
theorem target_fault_iff {hf : Nat} {addr : Offset} {size : AccessSize} (hhf : hf ≤ 256) :
    target hf addr size = .fault ↔ addr.toNat % size.bytes ≠ 0 ∨ (size ≠ .word ∧
      (addr.toNat < 0x1000 ∨ (0x2000 ≤ addr.toNat ∧ addr.toNat < 0x2000 + 16 * hf) ∨
        (0x3000 ≤ addr.toNat ∧ addr.toNat < 0x3000 + 8 * hf) ∨ (0x4000 ≤ addr.toNat ∧ addr.toNat < 0x40A0))) := by
  constructor
  · intro h
    unfold target at h
    simp only at h
    split_ifs at h with hmis hreg hstore hgap hbuf hgap' hwork hgap'' hbqs
    · exact .inl hmis
    · refine .inr ⟨narrow_of_wordOnly_fault h ?_, .inl hreg⟩
      split <;> nofun
    · exact .inr ⟨narrow_of_wordOnly_fault h nofun, .inr (.inl ⟨Nat.not_lt.1 hgap, hbuf.1⟩)⟩
    · exact .inr ⟨narrow_of_wordOnly_fault h nofun, .inr (.inr (.inl ⟨Nat.not_lt.1 hgap', hwork.1⟩))⟩
    · exact .inr ⟨narrow_of_wordOnly_fault h nofun, .inr (.inr (.inr ⟨Nat.not_lt.1 hgap'', hbqs⟩))⟩
  · rintro (hmis | ⟨hsize, hrange⟩)
    · exact target_misaligned hmis
    · exact target_narrow hsize hhf hrange

section

variable {s : State} {addr : Offset} {size : AccessSize} (h : target s.params.halfFrames addr size ≠ .fault)
include h

theorem hostAccess_read_data : ∃ d, hostAccess (.read addr size) s = .next { s with reply := .data d } := by
  have hdata : ∃ d, s.readReply addr size = .data d := by
    unfold State.readReply
    split
    case h_7 hfault => exact absurd hfault h
    all_goals exact ⟨_, rfl⟩
  exact hdata.imp fun d hd => congrArg (fun r => Host.Outcome.next (s.replied r)) hd

/-- Whatever a write does, a command it issues included, it leaves the acknowledgement on the bus. -/
theorem hostAccess_write_ack (v : Word) :
    ∃ t, hostAccess (.write addr size v) s = .next t ∧ t.reply = .ack := by
  obtain ⟨t, ht⟩ := hostWrite_completes addr size v s
  refine ⟨t, ht, ?_⟩
  rcases hostWrite_cases ht with
    ⟨-, -, hissue⟩ | rfl | rfl | rfl | rfl | ⟨_, _, rfl⟩ | ⟨_, _, rfl⟩ | rfl | ⟨hfault, -⟩
  · rcases issue_cases hissue with ⟨_, _, hexec⟩ | ⟨_, rfl⟩
    · obtain ⟨-, -, hreply⟩ := (exec_keeps hexec).own
      exact hreply
    · rfl
  any_goals rfl
  exact absurd hfault h

end

/-- Settles O18: the two kinds of access are those that fault and those that do not. -/
theorem busFaultExactly : Obligations.BusFaultExactly := by
  unfold Obligations.BusFaultExactly
  intro s addr size hwf a n narrow
  have hiff : target s.params.halfFrames addr size = .fault ↔ a % n ≠ 0 ∨ narrow :=
    (target_fault_iff hwf.1.2).trans (or_congr_right (and_congr_left' bytes_lt_four_iff.symm))
  rw [← hiff]
  exact ⟨hostAccess_fault, fun h => ⟨hostAccess_read_data h, hostAccess_write_ack h⟩⟩

/-! ## The interrupt level (R316) -/

/-- Bit 14 of `STATUS` shows the level (10_state.md R37). -/
theorem statusWord_bit_irq (s : State) : s.statusWord.getLsbD 14 = s.irq := by
  obtain ⟨-, -, -, -, -, -, -, -, -, -, -, hirq, -⟩ := statusWordLayout s
  exact hirq

theorem irq_iff (s : State) : s.irq = true ↔
    s.irqEn = true ∧ ((s.pipe = .streaming ∧ (s.nf0 = true ∨ s.nf1 = true)) ∨
      (s.pipe = .prebuf ∧ s.params.prebufBytes ≤ s.avail)) := by
  simp [State.irq]

theorem irq_of_stopped {s : State} (h : s.pipe = .stopped) : s.irq = false := by
  simp [State.irq, h]

theorem irq_of_streaming_clear {s : State} (hp : s.pipe = .streaming) (h0 : s.nf0 = false) (h1 : s.nf1 = false) :
    s.irq = false := by
  simp [State.irq, hp, h0, h1]

/-- AO_TASK that has nothing left to wait for ends with the level low: idle in STOPPED, or streaming unflagged. -/
theorem irq_after_aoTask {s t : State} (h : exec .aoTask s = .next t)
    (hwork : s.pipe = .streaming ∨ s.params.prebufBytes ≤ s.avail) : t.irq = false := by
  cases hp : s.pipe with
  | stopped =>
    cases (exec_aoTask_stopped hp).symm.trans h
    exact irq_of_stopped hp
  | prebuf =>
    cases (exec_aoTask_prebuf hp).symm.trans h
    have hav : s.params.prebufBytes ≤ s.avail := hwork.resolve_left (by simp [hp])
    rcases taskPrebuf_eq s with ⟨hlow, -⟩ | ⟨-, _, _, _, _, _, _, _, _, _, _, e⟩
    · exact absurd hav (Nat.not_le.2 hlow)
    · rw [e]
      exact irq_of_streaming_clear rfl rfl rfl
  | streaming =>
    cases (exec_aoTask_streaming hp).symm.trans h
    obtain ⟨_, _, _, _, _, _, _, _, _, _, _, _, e⟩ := taskStreaming_eq s
    rw [e]
    exact irq_of_streaming_clear hp rfl rfl

/-- Settles O57: bit 14 is the level; AO_STOP leaves STOPPED, and AO_TASK leaves no flag and no data waited for. -/
theorem interruptLevel : Obligations.InterruptLevel := by
  unfold Obligations.InterruptLevel
  refine ⟨fun s => by rw [statusWord_bit_irq, irq_iff], fun s t i h hi => ?_⟩
  rcases hi with rfl | ⟨rfl, hwork⟩
  · exact irq_of_stopped (exec_pipe h)
  · exact irq_after_aoTask h hwork

end Sys2Proof.Machine
end

section
/-! PROOFS. The invariant at reset (O6). -/

namespace Sys2Proof.Machine

open Sys2Proof

/-- The reset state of any block has the invariant (70_reset_and_hazards.md R340, R341): its buffers are made in their
size, and every register starts at a value of its range, `HOST_VOL` because the range of R8 spans 0. -/
theorem inv_resetWith {p : Config.Params} {m : Memory} (hp : p.wf) (hm : m.wf) : (State.resetWith p m).Inv where
  params := hp
  store := hm
  buf := List.length_replicate
  work := List.length_replicate
  bqs := bqsCanonical_zero
  hostVol := zero_in_volRange hp
  localAtt := Nat.zero_le _
  volScale := Nat.zero_le _
  held := ⟨inSampleRange_zero, inSampleRange_zero⟩
  dmaPos := two_mul_halfFrames_pos hp
  fifo := Nat.zero_le _
  dmaRun := rfl
  mute := ⟨rfl, nofun⟩
  amp := rfl

/-- Settles O6: the open parameters lie in their ranges and the power-on image is canonical. -/
theorem invariantAtReset : Obligations.InvariantAtReset := by
  unfold Obligations.InvariantAtReset
  exact inv_resetWith params_wf wf_powerOnStore

end Sys2Proof.Machine
end
